-- ==== Sys2Proof/Word.lean ====
section
/-! DEFINITION. Word.lean: the widths the spec's quantities have (`00_scope.md` R4, R9; `10_state.md` R33).

All values are unsigned (R9). Wrapping is always that of the width written here: `trunc_N` of the spec is arithmetic
at the width `N`, and `zext_N` is `BitVec.setWidth N`. -/

namespace Sys2Proof

/-- A data register, a timer or a memory byte: 8 bits (`00_scope.md` R4). -/
abbrev Byte := BitVec 8

/-- An instruction word, `pc`, `I` or a stack slot: 16 bits (`00_scope.md` R4). -/
abbrev Word := BitVec 16

/-- A 4-bit instruction field: `X`, `Y`, `N`, or a key index (`30_encoding.md` R65, `60_exceptions.md` R186). -/
abbrev Nibble := BitVec 4

/-- The 12-bit instruction field `NNN` (`30_encoding.md` R65). -/
abbrev Addr12 := BitVec 12

/-- One row of the display: 64 pixels, pixel `x` at bit `63 - x` (`10_state.md` R20). -/
abbrev PixelRow := BitVec 64

end Sys2Proof
end

