-- ==== Sys2Proof/Syntax.lean ====
section
/-! DEFINITION. Syntax.lean: the 34 instructions of `30_encoding.md` R63, one constructor per row of
`spec/opcode_table.json`, in the table's order.

Operands are the fields of R65 at their own widths. A field that is encoded but not examined is kept: `n` of `5XYN`
and `9XYN` (R68), and `y` of the two shifts (`41_alu.md` R108, R110), so that no bit of a word is lost. -/

namespace Sys2Proof

/-- An instruction of the CHIP-8 core. -/
inductive Instr where
  /-- `00E0`: clear the display (R140). -/
  | cls
  /-- `00EE`: return from subroutine (R80). -/
  | ret
  /-- `1NNN`: jump (R81). -/
  | jp (nnn : Addr12)
  /-- `2NNN`: call subroutine (R82). -/
  | call (nnn : Addr12)
  /-- `3XNN`: skip if `VX = NN` (R83). -/
  | seImm (x : Nibble) (nn : Byte)
  /-- `4XNN`: skip if `VX ≠ NN` (R84). -/
  | sneImm (x : Nibble) (nn : Byte)
  /-- `5XYN`: skip if `VX = VY` (R85); `n` is not examined (R68). -/
  | seReg (x y n : Nibble)
  /-- `6XNN`: load immediate (R100). -/
  | ldImm (x : Nibble) (nn : Byte)
  /-- `7XNN`: add immediate, no flag (R101). -/
  | addImm (x : Nibble) (nn : Byte)
  /-- `8XY0`: register copy (R102). -/
  | ldReg (x y : Nibble)
  /-- `8XY1`: bitwise OR (R103). -/
  | orReg (x y : Nibble)
  /-- `8XY2`: bitwise AND (R104). -/
  | andReg (x y : Nibble)
  /-- `8XY3`: bitwise exclusive OR (R105). -/
  | xorReg (x y : Nibble)
  /-- `8XY4`: add, carry into VF (R106). -/
  | addReg (x y : Nibble)
  /-- `8XY5`: `VX - VY`, not-borrow into VF (R107). -/
  | subReg (x y : Nibble)
  /-- `8XY6`: shift right by one, bit 0 into VF (R108). -/
  | shr (x y : Nibble)
  /-- `8XY7`: `VY - VX`, not-borrow into VF (R109). -/
  | subn (x y : Nibble)
  /-- `8XYE`: shift left by one, bit 7 into VF (R110). -/
  | shl (x y : Nibble)
  /-- `9XYN`: skip if `VX ≠ VY` (R86); `n` is not examined (R68). -/
  | sneReg (x y n : Nibble)
  /-- `ANNN`: load the index register (R120). -/
  | ldI (nnn : Addr12)
  /-- `BNNN`: jump to `NNN + V0` (R87). -/
  | jpV0 (nnn : Addr12)
  /-- `CXNN`: random byte ANDed with `NN` (R111). -/
  | rnd (x : Nibble) (nn : Byte)
  /-- `DXYN`: XOR an `n`-row sprite onto the display (R141). -/
  | drw (x y n : Nibble)
  /-- `EX9E`: skip if the key numbered `VX` is pressed (R150). -/
  | skp (x : Nibble)
  /-- `EXA1`: skip if the key numbered `VX` is not pressed (R151). -/
  | sknp (x : Nibble)
  /-- `FX07`: read the delay timer (R152). -/
  | ldVxDt (x : Nibble)
  /-- `FX0A`: wait for a pressed key (R153). -/
  | ldVxK (x : Nibble)
  /-- `FX15`: set the delay timer (R154). -/
  | ldDtVx (x : Nibble)
  /-- `FX18`: set the sound timer (R155). -/
  | ldStVx (x : Nibble)
  /-- `FX1E`: add `VX` to `I`, overflow into VF (R121). -/
  | addI (x : Nibble)
  /-- `FX29`: point `I` at the glyph of the digit in `VX` (R122). -/
  | ldF (x : Nibble)
  /-- `FX33`: store the decimal digits of `VX` (R123). -/
  | ldB (x : Nibble)
  /-- `FX55`: store `V0 .. VX` at `I` (R124). -/
  | storeRegs (x : Nibble)
  /-- `FX65`: load `V0 .. VX` from `I` (R125). -/
  | loadRegs (x : Nibble)
  deriving DecidableEq, Repr

end Sys2Proof
end

