-- ==== Sys2Proof/WellFormed.lean ====
section
/-! DEFINITION. WellFormed.lean: which values of the syntax the interface admits.

Every operand of `Instr` has exactly the width of its field (`30_encoding.md` R65) and every value of a field is legal
(`10_state.md` R10: "every index is legal"), so an out-of-range operand cannot be written down and `Instr.wellFormed`
holds of every term. What can be ill formed is an encoding an assembler would not emit (R68, R69) and a program image
of a forbidden length (`70_reset_and_hazards.md` R204). -/

namespace Sys2Proof

/-- No instruction term is ill formed: each field is used at its own width and admits all its values (R65, R10). -/
def Instr.wellFormed : Instr → Bool
  | .cls | .ret | .jp _ | .call _ | .seImm _ _ | .sneImm _ _ | .seReg _ _ _ | .ldImm _ _ | .addImm _ _
  | .ldReg _ _ | .orReg _ _ | .andReg _ _ | .xorReg _ _ | .addReg _ _ | .subReg _ _ | .shr _ _ | .subn _ _
  | .shl _ _ | .sneReg _ _ _ | .ldI _ | .jpV0 _ | .rnd _ _ | .drw _ _ _ | .skp _ | .sknp _ | .ldVxDt _
  | .ldVxK _ | .ldDtVx _ | .ldStVx _ | .addI _ | .ldF _ | .ldB _ | .storeRegs _ | .loadRegs _ => true

/-- The canonical encodings, the only ones an assembler emits: `N = 0` in groups 5 and 9 (R68) and `Y = 0` in the two
shifts (R69). The hardware executes the others all the same. -/
def Instr.canonical : Instr → Bool
  | .seReg _ _ n | .sneReg _ _ n => n == 0
  | .shr _ y | .shl _ y => y == 0
  | .cls | .ret | .jp _ | .call _ | .seImm _ _ | .sneImm _ _ | .ldImm _ _ | .addImm _ _ | .ldReg _ _ | .orReg _ _
  | .andReg _ _ | .xorReg _ _ | .addReg _ _ | .subReg _ _ | .subn _ _ | .ldI _ | .jpV0 _ | .rnd _ _ | .drw _ _ _
  | .skp _ | .sknp _ | .ldVxDt _ | .ldVxK _ | .ldDtVx _ | .ldStVx _ | .addI _ | .ldF _ | .ldB _ | .storeRegs _
  | .loadRegs _ => true

end Sys2Proof
end

