-- ==== Sys2Proof/Decode.lean ====
section
/-! DEFINITION. Decode.lean: from bytes to an instruction or a rejection by name, and back.

Decoding depends on the 16 fetched bits alone (`30_encoding.md` R73). The high nibble selects the group; groups 0, 8, E
and F have the secondary key of R64. A word that matches no row of R63 is unrecognized (R66, R67). -/

namespace Sys2Proof

/-- Why bytes are no instruction: the dispatched group whose secondary key is not recognized (R67), or fewer than the
two bytes an instruction has (R60). -/
inductive DecodeError where
  /-- A `0NNN` word other than `00E0` and `00EE`. -/
  | group0
  /-- A group-8 word whose low nibble is 8, 9, A, B, C, D or F. -/
  | group8
  /-- A group-E word whose low byte is neither `9E` nor `A1`. -/
  | groupE
  /-- A group-F word whose low byte is none of the nine of R64. -/
  | groupF
  /-- Fewer than two bytes. -/
  | truncated
  deriving DecidableEq, Repr

/-- `op[15:12]`, the group (R62). -/
def opGroup (op : Word) : Nibble := op.extractLsb' 12 4
/-- `X = op[11:8]` (R65). -/
def opX (op : Word) : Nibble := op.extractLsb' 8 4
/-- `Y = op[7:4]` (R65). -/
def opY (op : Word) : Nibble := op.extractLsb' 4 4
/-- `N = op[3:0]` (R65). -/
def opN (op : Word) : Nibble := op.extractLsb' 0 4
/-- `NN = op[7:0]` (R65). -/
def opNN (op : Word) : Byte := op.extractLsb' 0 8
/-- `NNN = op[11:0]` (R65). -/
def opNNN (op : Word) : Addr12 := op.extractLsb' 0 12

/-- Group 0 is matched on the whole low 12 bits (R64). -/
def decodeGroup0 (op : Word) : Except DecodeError Instr :=
  if opNNN op = 0x0E0 then .ok .cls
  else if opNNN op = 0x0EE then .ok .ret
  else .error .group0

/-- Group 8 is keyed on the low nibble (R64). -/
def decodeGroup8 (op : Word) : Except DecodeError Instr :=
  match (opN op).toNat with
  | 0x0 => .ok (.ldReg (opX op) (opY op))
  | 0x1 => .ok (.orReg (opX op) (opY op))
  | 0x2 => .ok (.andReg (opX op) (opY op))
  | 0x3 => .ok (.xorReg (opX op) (opY op))
  | 0x4 => .ok (.addReg (opX op) (opY op))
  | 0x5 => .ok (.subReg (opX op) (opY op))
  | 0x6 => .ok (.shr (opX op) (opY op))
  | 0x7 => .ok (.subn (opX op) (opY op))
  | 0xE => .ok (.shl (opX op) (opY op))
  | _ => .error .group8

/-- Group E is keyed on the low byte (R64). -/
def decodeGroupE (op : Word) : Except DecodeError Instr :=
  if opNN op = 0x9E then .ok (.skp (opX op))
  else if opNN op = 0xA1 then .ok (.sknp (opX op))
  else .error .groupE

/-- Group F is keyed on the low byte (R64). -/
def decodeGroupF (op : Word) : Except DecodeError Instr :=
  if opNN op = 0x07 then .ok (.ldVxDt (opX op))
  else if opNN op = 0x0A then .ok (.ldVxK (opX op))
  else if opNN op = 0x15 then .ok (.ldDtVx (opX op))
  else if opNN op = 0x18 then .ok (.ldStVx (opX op))
  else if opNN op = 0x1E then .ok (.addI (opX op))
  else if opNN op = 0x29 then .ok (.ldF (opX op))
  else if opNN op = 0x33 then .ok (.ldB (opX op))
  else if opNN op = 0x55 then .ok (.storeRegs (opX op))
  else if opNN op = 0x65 then .ok (.loadRegs (opX op))
  else .error .groupF

/-- The instruction a 16-bit word is, by R62 to R64, or the group that does not recognize it. -/
def decodeWord (op : Word) : Except DecodeError Instr :=
  match (opGroup op).toNat with
  | 0x0 => decodeGroup0 op
  | 0x1 => .ok (.jp (opNNN op))
  | 0x2 => .ok (.call (opNNN op))
  | 0x3 => .ok (.seImm (opX op) (opNN op))
  | 0x4 => .ok (.sneImm (opX op) (opNN op))
  | 0x5 => .ok (.seReg (opX op) (opY op) (opN op))
  | 0x6 => .ok (.ldImm (opX op) (opNN op))
  | 0x7 => .ok (.addImm (opX op) (opNN op))
  | 0x8 => decodeGroup8 op
  | 0x9 => .ok (.sneReg (opX op) (opY op) (opN op))
  | 0xA => .ok (.ldI (opNNN op))
  | 0xB => .ok (.jpV0 (opNNN op))
  | 0xC => .ok (.rnd (opX op) (opNN op))
  | 0xD => .ok (.drw (opX op) (opY op) (opN op))
  | 0xE => decodeGroupE op
  | _ => decodeGroupF op

/-- The word of two consecutive bytes, the first the high one (`20_memory.md` R47). -/
def wordOfBytes (hi lo : Byte) : Word := hi.setWidth 16 <<< 8 ||| lo.setWidth 16
/-- The byte of a word that lies at the lower address, `op[15:8]` (`20_memory.md` R47). -/
def highByte (op : Word) : Byte := op.extractLsb' 8 8
/-- The byte of a word that lies at the higher address, `op[7:0]` (`20_memory.md` R47). -/
def lowByte (op : Word) : Byte := op.extractLsb' 0 8

/-- Decode the first instruction of a byte sequence and give back the bytes after it. Total on any bytes. -/
def decode : List Byte → Except DecodeError (Instr × List Byte)
  | hi :: lo :: rest =>
    match decodeWord (wordOfBytes hi lo) with
    | .ok i => .ok (i, rest)
    | .error e => .error e
  | _ => .error .truncated

/-- Format NNN (R61). -/
def encodeNNN (group : Nibble) (nnn : Addr12) : Word :=
  group.setWidth 16 <<< 12 ||| nnn.setWidth 16
/-- Format XNN, and with a literal low byte format XFN (R61). -/
def encodeXNN (group x : Nibble) (nn : Byte) : Word :=
  group.setWidth 16 <<< 12 ||| x.setWidth 16 <<< 8 ||| nn.setWidth 16
/-- Format XYN (R61). -/
def encodeXYN (group x y n : Nibble) : Word :=
  group.setWidth 16 <<< 12 ||| x.setWidth 16 <<< 8 ||| y.setWidth 16 <<< 4 ||| n.setWidth 16

/-- The word of an instruction, written from the patterns of R63. -/
def encode : Instr → Word
  | .cls => 0x00E0
  | .ret => 0x00EE
  | .jp nnn => encodeNNN 0x1 nnn
  | .call nnn => encodeNNN 0x2 nnn
  | .seImm x nn => encodeXNN 0x3 x nn
  | .sneImm x nn => encodeXNN 0x4 x nn
  | .seReg x y n => encodeXYN 0x5 x y n
  | .ldImm x nn => encodeXNN 0x6 x nn
  | .addImm x nn => encodeXNN 0x7 x nn
  | .ldReg x y => encodeXYN 0x8 x y 0x0
  | .orReg x y => encodeXYN 0x8 x y 0x1
  | .andReg x y => encodeXYN 0x8 x y 0x2
  | .xorReg x y => encodeXYN 0x8 x y 0x3
  | .addReg x y => encodeXYN 0x8 x y 0x4
  | .subReg x y => encodeXYN 0x8 x y 0x5
  | .shr x y => encodeXYN 0x8 x y 0x6
  | .subn x y => encodeXYN 0x8 x y 0x7
  | .shl x y => encodeXYN 0x8 x y 0xE
  | .sneReg x y n => encodeXYN 0x9 x y n
  | .ldI nnn => encodeNNN 0xA nnn
  | .jpV0 nnn => encodeNNN 0xB nnn
  | .rnd x nn => encodeXNN 0xC x nn
  | .drw x y n => encodeXYN 0xD x y n
  | .skp x => encodeXNN 0xE x 0x9E
  | .sknp x => encodeXNN 0xE x 0xA1
  | .ldVxDt x => encodeXNN 0xF x 0x07
  | .ldVxK x => encodeXNN 0xF x 0x0A
  | .ldDtVx x => encodeXNN 0xF x 0x15
  | .ldStVx x => encodeXNN 0xF x 0x18
  | .addI x => encodeXNN 0xF x 0x1E
  | .ldF x => encodeXNN 0xF x 0x29
  | .ldB x => encodeXNN 0xF x 0x33
  | .storeRegs x => encodeXNN 0xF x 0x55
  | .loadRegs x => encodeXNN 0xF x 0x65

/-- The mask and the match of the instruction's row in R63: a word `op` is the instruction iff `op & mask = match`. -/
def opcodeRow : Instr → Word × Word
  | .cls => (0xFFFF, 0x00E0)
  | .ret => (0xFFFF, 0x00EE)
  | .jp _ => (0xF000, 0x1000)
  | .call _ => (0xF000, 0x2000)
  | .seImm _ _ => (0xF000, 0x3000)
  | .sneImm _ _ => (0xF000, 0x4000)
  | .seReg _ _ _ => (0xF000, 0x5000)
  | .ldImm _ _ => (0xF000, 0x6000)
  | .addImm _ _ => (0xF000, 0x7000)
  | .ldReg _ _ => (0xF00F, 0x8000)
  | .orReg _ _ => (0xF00F, 0x8001)
  | .andReg _ _ => (0xF00F, 0x8002)
  | .xorReg _ _ => (0xF00F, 0x8003)
  | .addReg _ _ => (0xF00F, 0x8004)
  | .subReg _ _ => (0xF00F, 0x8005)
  | .shr _ _ => (0xF00F, 0x8006)
  | .subn _ _ => (0xF00F, 0x8007)
  | .shl _ _ => (0xF00F, 0x800E)
  | .sneReg _ _ _ => (0xF000, 0x9000)
  | .ldI _ => (0xF000, 0xA000)
  | .jpV0 _ => (0xF000, 0xB000)
  | .rnd _ _ => (0xF000, 0xC000)
  | .drw _ _ _ => (0xF000, 0xD000)
  | .skp _ => (0xF0FF, 0xE09E)
  | .sknp _ => (0xF0FF, 0xE0A1)
  | .ldVxDt _ => (0xF0FF, 0xF007)
  | .ldVxK _ => (0xF0FF, 0xF00A)
  | .ldDtVx _ => (0xF0FF, 0xF015)
  | .ldStVx _ => (0xF0FF, 0xF018)
  | .addI _ => (0xF0FF, 0xF01E)
  | .ldF _ => (0xF0FF, 0xF029)
  | .ldB _ => (0xF0FF, 0xF033)
  | .storeRegs _ => (0xF0FF, 0xF055)
  | .loadRegs _ => (0xF0FF, 0xF065)

/-- The instruction as it lies in memory, the lowest address first (R60, `20_memory.md` R47). -/
def encodeBytes (i : Instr) : List Byte := [highByte (encode i), lowByte (encode i)]

/-- The word the opcode table's bits make: the low `nbits` bits of `w`, every bit above them 0. -/
def tableWord (nbits w : Nat) : Word := BitVec.ofNat 16 (w % 2 ^ nbits)

/-- The instruction the decoder reads from the bytes of a word numbered as the opcode table numbers it: one 16-bit word,
its high byte at the lower address. -/
def decodeTableWord (nbits w : Nat) : Option Instr :=
  match decode [highByte (tableWord nbits w), lowByte (tableWord nbits w)] with
  | .ok (i, _) => some i
  | .error _ => none

end Sys2Proof
end

