-- ==== Sys2Proof/Config.lean ====
section
/-! DEFINITION. Config.lean: the fixed sizes of the hardware (`00_scope.md` R4), and the values the spec leaves open, as
constants without a body. The parameters of R5 that have a value stand in Machine/Params.lean. -/

namespace Sys2Proof

/-- `MEM_SIZE`: 4096 bytes, addresses 0x000 to 0xFFF (R4, `20_memory.md` R41). -/
def Config.memSize : Nat := 4096

/-- `PROG_BASE`: where an installed image begins (R4). -/
def Config.progBase : Nat := 0x200

/-- `PROG_MAX_LEN`: the longest image, 3584 bytes (R4). -/
def Config.progMaxLen : Nat := 3584

/-- The bytes of the font: 16 glyphs of 5 (R4). -/
def Config.fontSize : Nat := 80

/-- FREE VALUE (log 2, DESIGN CHOICE). The `k`-th byte drawn by `CXNN`: "uniform over 0–255 per call", with no
reproducibility contract (`10_state.md` R24, `41_alu.md` R111). No proof can see a value of it. -/
opaque Config.rand : Nat → Byte

/-- FREE VALUE (log 3, DESIGN CHOICE). `TICK_PERIOD`: 1/60 second in the host's time unit, which the spec leaves open
(`00_scope.md` R5, `92_eei_decisions.md` D22). No proof can see its value. -/
opaque Config.tickPeriod : Nat

end Sys2Proof
end

