-- ==== Sys2Proof/Machine/Params.lean ====
section
/-! DEFINITION. Machine/Params.lean: the parameters of `00_scope.md` R5 at the values this hardware takes. -/

namespace Sys2Proof

/-- `PC_RESET` (R5, `10_state.md` R12). -/
def Config.pcReset : Word := 0x200

/-- `FONT_BASE`, the address of glyph 0 (R5). -/
def Config.fontBase : Nat := 0x000

/-- `SHIFT_USES_VY`: whether `8XY6` and `8XYE` shift `VY` into `VX` (R5, `41_alu.md` R108). -/
def Config.shiftUsesVY : Bool := false

/-- `LOADSTORE_INCREMENTS_I`: whether `FX55` and `FX65` advance `I` afterwards (R5, `42_index_memory.md` R124). -/
def Config.loadStoreIncrementsI : Bool := false

/-- `FONT_TABLE`: the glyphs of `10_state.md` R31, five bytes a digit, top row first.
PRESUMED (log 6): R31 marks the bytes as general knowledge, so no statement rests on one of them. -/
def Config.fontTable : List Byte :=
  [0xF0, 0x90, 0x90, 0x90, 0xF0] ++
  [0x20, 0x60, 0x20, 0x20, 0x70] ++
  [0xF0, 0x10, 0xF0, 0x80, 0xF0] ++
  [0xF0, 0x10, 0xF0, 0x10, 0xF0] ++
  [0x90, 0x90, 0xF0, 0x10, 0x10] ++
  [0xF0, 0x80, 0xF0, 0x10, 0xF0] ++
  [0xF0, 0x80, 0xF0, 0x90, 0xF0] ++
  [0xF0, 0x10, 0x20, 0x40, 0x40] ++
  [0xF0, 0x90, 0xF0, 0x90, 0xF0] ++
  [0xF0, 0x90, 0xF0, 0x10, 0xF0] ++
  [0xF0, 0x90, 0xF0, 0x90, 0x90] ++
  [0xE0, 0x90, 0xE0, 0x90, 0xE0] ++
  [0xF0, 0x80, 0x80, 0x80, 0xF0] ++
  [0xE0, 0x90, 0x90, 0x90, 0xE0] ++
  [0xF0, 0x80, 0xF0, 0x80, 0xF0] ++
  [0xF0, 0x80, 0xF0, 0x80, 0x80]

end Sys2Proof
end

