-- ==== Sys2Proof/Machine/State.lean ====
section
/-! DEFINITION. Machine/State.lean: everything the spec gives the machine (`10_state.md` R10 to R26), as plain data, and
the state after reset (R30, `70_reset_and_hazards.md` R200). -/

namespace Sys2Proof.Machine

/-- The codes of `60_exceptions.md` R171: what `fault_cause` and the `cause` field of a Step result hold. -/
inductive FaultCause where
  /-- 0: no fatal halt since the last Reset or accepted Install. -/
  | none
  /-- 1: `pc + 1 >= 4096` at fetch. -/
  | fetchOob
  /-- 2: a data read at 4096 or above (`DXYN`, `FX65`). -/
  | memReadOob
  /-- 3: a data write at 4096 or above (`FX33`, `FX55`). -/
  | memWriteOob
  /-- 4: `sp = 15` at a call. -/
  | stackOverflow
  /-- 5: `sp = 0` at a return. -/
  | stackUnderflow
  deriving DecidableEq, Repr

/-- The status of a Step result (`30_encoding.md` R71). -/
inductive Status where
  /-- 0: one instruction completed. -/
  | ok
  /-- 1: `FX0A` with no key pressed; no state changed. -/
  | waiting
  /-- 2: this Step raised a fatal halt. -/
  | halted
  /-- 3: `loaded` was 0, nothing happened. -/
  | refused
  deriving DecidableEq, Repr

/-- The advisory codes of `60_exceptions.md` R177. -/
inductive Advisory where
  /-- 0 -/
  | none
  /-- 1: the fetched word matches no instruction. -/
  | unknownOpcode
  /-- 2: `FX29` with `VX > 15`. -/
  | fontDigitRange
  /-- 3: `EX9E` or `EXA1` with `VX >= 16`. -/
  | keyIndexRange
  deriving DecidableEq, Repr

/-- What a Step returns to the host (`30_encoding.md` R71). -/
structure StepResult where
  status : Status
  cause : FaultCause
  advisory : Advisory
  deriving DecidableEq, Repr

/-- Main memory: the bytes that differ from their reset content, addresses strictly rising (`20_memory.md` R41). -/
abbrev Memory := List Host.Cell

/-- The state of the block. The last two fields are the model's own. -/
structure State where
  /-- `V[0] .. V[15]`; VF is `V[15]` (R10, R11). -/
  v : Vector Byte 16
  /-- The program counter (R12). -/
  pc : Word
  /-- The index register `I` (R14). -/
  i : Word
  /-- The stack pointer, in [0,16) (R16). -/
  sp : Fin 16
  /-- The return stack (R16). -/
  stack : Vector Word 16
  /-- The delay timer (R18). -/
  dt : Byte
  /-- The sound timer (R18). -/
  st : Byte
  /-- The key states, true = pressed (R19). -/
  key : Vector Bool 16
  /-- The display rows; pixel `(x, y)` is bit `63 - x` of row `y` (R20). -/
  disp : Vector PixelRow 32
  /-- The loaded-program flag (R21). -/
  loaded : Bool
  /-- The cause of the last fatal halt (R22). -/
  faultCause : FaultCause
  /-- The time stamp of the last decrement (R23), in the host's open unit. -/
  timerRef : Nat
  /-- Main memory (R26). -/
  mem : Memory
  /-- The MODEL'S OWN field (log 8): what the last Step returned to the host (`30_encoding.md` R71). -/
  result : StepResult
  /-- The MODEL'S OWN field (log 2): how many random bytes `CXNN` has drawn. -/
  draws : Nat
  deriving DecidableEq, Repr

/-- Why the machine would stop with a fault. The spec has no such event: every fatal condition has a stated effect (it
clears `loaded` and writes `fault_cause`, `60_exceptions.md` R172) and is therefore a next state, so there is no
constructor and no step can fault (log 9). -/
inductive Fault where
  deriving DecidableEq, Repr

/-- Why an operation has no answer. -/
inductive Refusal where
  /-- Raised only by an arm of `exec` whose instruction has no meaning yet; there is none. Safe: nothing is claimed. -/
  | notModelled (mnemonic : String)
  /-- Raised by `Tick(now)` with `now` earlier than `timer_ref`, which the spec excludes by a precondition
  (`60_exceptions.md` R183, `93_implementation_defined.md` U9). No Step raises it. Safe: nothing is claimed (log 5). -/
  | timeBackwards
  deriving DecidableEq, Repr

/-- What a Step, or any operation on the state, answers. -/
abbrev Answer := Host.Outcome State Fault Refusal

/-- The state `Reset(now0)` leaves (R30, `70_reset_and_hazards.md` R200). Memory with nothing listed is the font at
`FONT_BASE` and 0x00 elsewhere (R203). -/
def State.resetAt (now0 : Nat) : State where
  v := Vector.replicate 16 0
  pc := Config.pcReset
  i := 0
  sp := 0
  stack := Vector.replicate 16 0
  dt := 0
  st := 0
  key := Vector.replicate 16 false
  disp := Vector.replicate 32 0
  loaded := false
  faultCause := .none
  timerRef := now0
  mem := []
  result := ⟨.ok, .none, .none⟩
  draws := 0

/-- The machine right after `Reset(0)`. The time stamp 0 is a DESIGN CHOICE (log 4). -/
def State.reset : State := State.resetAt 0

end Sys2Proof.Machine
end

