-- ==== Sys2Proof/Machine/Ops.lean ====
section
/-! DEFINITION. Machine/Ops.lean: the named operations on memory, registers, stack, display and program counter, how an
instruction ends, and the fatal halt. Every meaning is written over these. -/

namespace Sys2Proof.Machine

/-! ### Codes -/

/-- The numeric code of a fatal cause (`60_exceptions.md` R171), the 3 bits `fault_cause` holds. -/
def FaultCause.code : FaultCause → BitVec 3
  | .none => 0
  | .fetchOob => 1
  | .memReadOob => 2
  | .memWriteOob => 3
  | .stackOverflow => 4
  | .stackUnderflow => 5

/-- The numeric code of a status (`30_encoding.md` R71). -/
def Status.code : Status → BitVec 2
  | .ok => 0
  | .waiting => 1
  | .halted => 2
  | .refused => 3

/-- The numeric code of an advisory (`60_exceptions.md` R177). -/
def Advisory.code : Advisory → BitVec 2
  | .none => 0
  | .unknownOpcode => 1
  | .fontDigitRange => 2
  | .keyIndexRange => 3

/-- "Runnable": the status is `OK` or `WAITING` (`30_encoding.md` R71). -/
def StepResult.runnable (r : StepResult) : Bool :=
  r.status == .ok || r.status == .waiting

/-! ### Main memory (`20_memory.md` R41, R43) -/

/-- What an address holds after Reset: the font at `FONT_BASE`, 0x00 elsewhere (`70_reset_and_hazards.md` R203). An
address that memory does not list still holds this. -/
def Memory.unlisted (a : Nat) : Byte :=
  if Config.fontBase ≤ a ∧ a < Config.fontBase + Config.fontSize then
    Config.fontTable.getD (a - Config.fontBase) 0
  else 0

/-- `mem[a]`. Every rule tests `a < 4096` before it reads (R43). -/
def Memory.read : Memory → Nat → Byte
  | [], a => Memory.unlisted a
  | (b, w) :: m, a => if a = b then w else Memory.read m a

/-- `mem[a] <- v`, keeping the canonical form. Every rule tests `a < 4096` before it writes (R43). -/
def Memory.write : Memory → Nat → Byte → Memory
  | [], a, v => if v = Memory.unlisted a then [] else [(a, v)]
  | (b, w) :: m, a, v =>
    if a < b then (if v = Memory.unlisted a then (b, w) :: m else (a, v) :: (b, w) :: m)
    else if a = b then (if v = Memory.unlisted a then m else (a, v) :: m)
    else (b, w) :: Memory.write m a v

/-- The canonical form from the address `lo` up: addresses strictly rising and below 4096, and no entry equal to what
an unlisted address reads as. -/
def Memory.wfFrom : Nat → Memory → Bool
  | _, [] => true
  | lo, (a, v) :: m =>
    decide (lo ≤ a) && decide (a < Config.memSize) && decide (v ≠ Memory.unlisted a) && Memory.wfFrom (a + 1) m

/-- The canonical form of memory: equal memories are equal lists. -/
def Memory.wf (m : Memory) : Bool := Memory.wfFrom 0 m

/-- An address is valid iff it is less than 4096 (R41). -/
def validAddress (a : Nat) : Bool := decide (a < Config.memSize)

/-- `MemRead(a, 1)` (R43). -/
def State.read (s : State) (a : Nat) : Byte := Memory.read s.mem a

/-- `MemWrite(a, 1, v)` (R43). -/
def State.write (s : State) (a : Nat) (v : Byte) : State := { s with mem := Memory.write s.mem a v }

/-- Bytes written at ascending addresses from `a` (R45). -/
def State.writeBytes (s : State) (a : Nat) : List Byte → State
  | [] => s
  | b :: bs => (s.write a b).writeBytes (a + 1) bs

/-! ### Registers (`10_state.md` R10) -/

/-- `V[x]`. -/
def State.reg (s : State) (x : Nibble) : Byte := s.v[x.toNat]'x.isLt

/-- `V[x] <- b`. -/
def State.setReg (s : State) (x : Nibble) (b : Byte) : State := { s with v := s.v.set x.toNat b x.isLt }

/-- `I <- w` (`10_state.md` R14). -/
def State.setIndex (s : State) (w : Word) : State := { s with i := w }

/-- `DT <- b` (`10_state.md` R18). -/
def State.setDelay (s : State) (b : Byte) : State := { s with dt := b }

/-- `ST <- b` (`10_state.md` R18). -/
def State.setSound (s : State) (b : Byte) : State := { s with st := b }

/-- One more random byte is drawn (log 2). -/
def State.countDraw (s : State) : State := { s with draws := s.draws + 1 }

/-- `V[k] <- mem[base + k]` for `k` from 0 up to, not including, `count`, ascending (`42_index_memory.md` R125). -/
def State.loadRegsFrom (s : State) (base : Nat) : Nat → State
  | 0 => s
  | k + 1 => (s.loadRegsFrom base k).setReg (BitVec.ofNat 4 k) (s.read (base + k))

/-- `mem[base + k] <- V[k]` for `k` from 0 up to, not including, `count`, ascending (`42_index_memory.md` R124). -/
def State.storeRegsFrom (s : State) (base : Nat) : Nat → State
  | 0 => s
  | k + 1 => (s.storeRegsFrom base k).write (base + k) (s.reg (BitVec.ofNat 4 k))

/-! ### The return stack (`10_state.md` R16) -/

/-- `sp + 1 >= 16`: a call would leave [0,16) (`40_flow.md` R82). -/
def State.stackFull (s : State) : Bool := decide (s.sp.val + 1 ≥ 16)

/-- `sp = 0`: empty (`40_flow.md` R80). -/
def State.stackEmpty (s : State) : Bool := decide (s.sp.val = 0)

/-- `stack[sp]`. -/
def State.stackTop (s : State) : Word := s.stack[s.sp.val]'s.sp.isLt

/-- `sp <- sp + 1; stack[sp] <- w`, for a stack that is not full (`40_flow.md` R82). -/
def State.push (s : State) (w : Word) : State :=
  let sp' : Fin 16 := Fin.ofNat 16 (s.sp.val + 1)
  { s with sp := sp', stack := s.stack.set sp'.val w sp'.isLt }

/-- `sp <- sp - 1`, for a stack that is not empty; the slot keeps its value (`40_flow.md` R80). -/
def State.pop (s : State) : State := { s with sp := Fin.ofNat 16 (s.sp.val - 1) }

/-! ### The display (`10_state.md` R20) -/

/-- `disp[y]` for `y` in 0..31. -/
def displayRow (d : Vector PixelRow 32) (y : Nat) : PixelRow := d[y]?.getD 0

/-- All rows of the display are written (`43_display.md` R140, R141). -/
def State.setDisplay (s : State) (d : Vector PixelRow 32) : State := { s with disp := d }

/-- Pixel `(x, y)`, `x` in 0..63 and `y` in 0..31: bit `63 - x` of `disp[y]`. -/
def State.pixel (s : State) (x y : Nat) : Bool := (displayRow s.disp y).getLsbD (63 - x)

/-! ### How a Step ends (`30_encoding.md` R70, R71) -/

/-- The Step returns `{OK, NONE, advisory}`. -/
def State.complete (s : State) (a : Advisory) : State := { s with result := ⟨.ok, .none, a⟩ }

/-- `pc <- target`, and the Step returns `OK` (`10_state.md` R13, absolute). -/
def State.jumpTo (s : State) (target : Word) : State := { s with pc := target }.complete .none

/-- `pc <- trunc_16(pc + 2)`, and the Step returns `OK` with the advisory (`10_state.md` R13, sequential). -/
def State.nextAdvised (s : State) (a : Advisory) : State := { s with pc := s.pc + 2 }.complete a

/-- `pc <- trunc_16(pc + 2)`, and the Step returns `OK` (`10_state.md` R13, sequential). -/
def State.nextInstr (s : State) : State := s.nextAdvised .none

/-- `pc <- trunc_16(pc + 4)` if the condition holds, else `trunc_16(pc + 2)`, with the advisory (`10_state.md` R13,
conditional skip). -/
def State.skipIfAdvised (s : State) (c : Bool) (a : Advisory) : State :=
  { s with pc := if c then s.pc + 4 else s.pc + 2 }.complete a

/-- The conditional skip without an advisory (`10_state.md` R13). -/
def State.skipIf (s : State) (c : Bool) : State := s.skipIfAdvised c .none

/-- `FX0A` with no key pressed: nothing changes and the Step returns `WAITING` (`44_keypad_timers.md` R153). -/
def State.wait (s : State) : State := { s with result := ⟨.waiting, .none, .none⟩ }

/-- `raise FatalHalt(c)` (`60_exceptions.md` R172). It is applied to the state before the Step, so every other piece of
state keeps its value (R173). -/
def State.fatalHalt (s : State) (c : FaultCause) : State :=
  { s with loaded := false, faultCause := c, result := ⟨.halted, c, .none⟩ }

/-- A Step with `loaded = 0`: nothing changes and the Step returns `{REFUSED, fault_cause, NONE}` (`30_encoding.md`
R75). -/
def State.refuseStep (s : State) : State := { s with result := ⟨.refused, s.faultCause, .none⟩ }

/-- An unrecognized word: `advise(UNKNOWN_OPCODE); pc <- trunc_16(pc + 2)` (`30_encoding.md` R66). -/
def State.unrecognized (s : State) : State := s.nextAdvised .unknownOpcode

/-! ### Fetch (`30_encoding.md` R72) -/

/-- Both bytes at `pc` are valid addresses, tested on the unbounded sum. -/
def State.fetchValid (s : State) : Bool := validAddress (s.pc.toNat + 1)

/-- `(MemRead(pc, 1) << 8) | MemRead(pc + 1, 1)`. -/
def State.fetchWord (s : State) : Word := wordOfBytes (s.read s.pc.toNat) (s.read (s.pc.toNat + 1))

/-- Lay an instruction's bytes where the next Step fetches and set the loaded flag as Install does
(`70_reset_and_hazards.md` R204). A `pc` at which nothing can be fetched is put at `PC_RESET` first (log 11). -/
def State.placeAtFetch (s : State) (bytes : List Byte) : State :=
  let s := if s.fetchValid then s else { s with pc := Config.pcReset }
  { s.writeBytes s.pc.toNat bytes with loaded := true, faultCause := .none }

end Sys2Proof.Machine
end

