-- ==== Sys2Proof/Machine/Operands.lean ====
section
/-! DEFINITION. Machine/Operands.lean: every operand form: effective addresses, jump targets, the shifted operand, the
decimal digits, the glyph address, key lookup and the placement of a sprite. Fields are unsigned and used at their own
width or zero-extended (`30_encoding.md` R65). -/

namespace Sys2Proof.Machine

/-- `zext_16(NNN)`: a byte address, not scaled (`30_encoding.md` R65). -/
def targetOf (nnn : Addr12) : Word := nnn.setWidth 16

/-- `trunc_16(zext_16(NNN) + zext_16(V[0]))`, not masked to 12 bits (`40_flow.md` R87). -/
def indexedTarget (s : State) (nnn : Addr12) : Word := nnn.setWidth 16 + (s.reg 0).setWidth 16

/-- `EA(k) = I + k`, an unbounded integer, neither masked nor wrapped (`42_index_memory.md` R126, `20_memory.md`
R44). -/
def effectiveAddress (s : State) (k : Nat) : Nat := s.i.toNat + k

/-- How many registers `FX55` and `FX65` move: `X + 1` (`42_index_memory.md` R124). -/
def transferCount (x : Nibble) : Nat := x.toNat + 1

/-- `I` after `FX55` or `FX65`: `I + X + 1` under the quirk, else unchanged (`42_index_memory.md` R124, R125). -/
def indexAfterTransfer (increments : Bool) (s : State) (x : Nibble) : Word :=
  if increments then s.i + x.setWidth 16 + 1 else s.i

/-- The operand of the shifts: `V[Y]` under the quirk, else `V[X]` (`41_alu.md` R108, R110). -/
def shiftOperand (usesVY : Bool) (s : State) (x y : Nibble) : Byte := if usesVY then s.reg y else s.reg x

/-- `v / 100` (`42_index_memory.md` R123). -/
def hundredsDigit (v : Byte) : Byte := BitVec.ofNat 8 (v.toNat / 100)
/-- `(v / 10) mod 10` (`42_index_memory.md` R123). -/
def tensDigit (v : Byte) : Byte := BitVec.ofNat 8 (v.toNat / 10 % 10)
/-- `v mod 10` (`42_index_memory.md` R123). -/
def onesDigit (v : Byte) : Byte := BitVec.ofNat 8 (v.toNat % 10)

/-- `trunc_16(FONT_BASE + 5 * v)`, of the whole byte (`42_index_memory.md` R122). -/
def glyphAddress (v : Byte) : Word := BitVec.ofNat 16 (Config.fontBase + 5 * v.toNat)

/-- `FONT_DIGIT_RANGE` iff `v > 15` (`42_index_memory.md` R122). -/
def digitAdvisory (v : Byte) : Advisory := if v.toNat > 15 then .fontDigitRange else .none

/-- `Pressed(v)`: the key of the whole byte `v`, not pressed when `v >= 16` (`44_keypad_timers.md` R156). -/
def pressed (s : State) (v : Byte) : Bool := s.key[v.toNat]?.getD false

/-- `KEY_INDEX_RANGE` iff `v >= 16` (`44_keypad_timers.md` R156). -/
def keyAdvisory (v : Byte) : Advisory := if v.toNat ≥ 16 then .keyIndexRange else .none

/-- The least pressed key of 0..15, if any (`44_keypad_timers.md` R153). -/
def leastPressedKey (s : State) : Option Nat := (List.range 16).find? fun k => s.key[k]?.getD false

/-- `x0 = V[X] mod 64` (`43_display.md` R141). -/
def spriteColumn (s : State) (x : Nibble) : Nat := (s.reg x).toNat % 64

/-- `y0 = V[Y] mod 32` (`43_display.md` R141). -/
def spriteTop (s : State) (y : Nibble) : Nat := (s.reg y).toNat % 32

/-- `min(N, 32 - y0)`: the rows that fall on the display (`43_display.md` R141). -/
def visibleRows (s : State) (y n : Nibble) : Nat := min n.toNat (32 - spriteTop s y)

/-- `Pattern(x0, b)`: a sprite byte placed at column `x0`, bit 7 leftmost, clipped at column 64 (`43_display.md`
R142). -/
def spritePattern (x0 : Nat) (b : Byte) : PixelRow :=
  if x0 ≤ 56 then b.setWidth 64 <<< (56 - x0) else b.setWidth 64 >>> (x0 - 56)

/-- The display and the collision flag after the first `count` rows of the sprite at `I`, drawn at column `x0` from row
`y0` down, ascending (`43_display.md` R141). -/
def drawRows (s : State) (x0 y0 : Nat) : Nat → Vector PixelRow 32 × Bool
  | 0 => (s.disp, false)
  | k + 1 =>
    let (d, hit) := drawRows s x0 y0 k
    let p := spritePattern x0 (s.read (effectiveAddress s k))
    let before := displayRow d (y0 + k)
    (d.setIfInBounds (y0 + k) (before ^^^ p), hit || decide (before &&& p ≠ 0))

end Sys2Proof.Machine
end

