-- ==== Sys2Proof/Machine/Flags.lean ====
section
/-! DEFINITION. Machine/Flags.lean: every flag the spec computes and the one place it goes to, VF (`10_state.md` R11).
A flag is computed from the operands before the instruction (`41_alu.md` R113). -/

namespace Sys2Proof.Machine

/-- The register VF, `V[15]` (`10_state.md` R11). -/
def vf : Nibble := 15

/-- A flag is written as exactly 0x00 or 0x01 (`10_state.md` R11). -/
def flagByte (c : Bool) : Byte := if c then 0x01 else 0x00

/-- Carry out of the 8-bit add: 1 iff the exact sum exceeds 255 (`41_alu.md` R106, R112). -/
def carryOut (a b : Byte) : Bool := decide (a.toNat + b.toNat > 255)

/-- Not-borrow of `a - b`: 1 iff `a >= b` (`41_alu.md` R107, R109, R112). -/
def notBorrow (a b : Byte) : Bool := decide (a.toNat ≥ b.toNat)

/-- The bit a right shift drops, bit 0 (`41_alu.md` R108). -/
def lowBit (t : Byte) : Bool := t.getLsbD 0

/-- The bit a left shift drops, bit 7 (`41_alu.md` R110). -/
def highBit (t : Byte) : Bool := t.getLsbD 7

/-- `I + VX > 0x0FFF` on the exact sum (`42_index_memory.md` R121). -/
def indexOverflow (i : Word) (b : Byte) : Bool := decide (i.toNat + b.toNat > 0x0FFF)

/-- The two writes of a flag-setting ALU instruction, in order: VF, then VX (`41_alu.md` R113). -/
def State.setFlagThenReg (s : State) (flag : Bool) (x : Nibble) (b : Byte) : State :=
  (s.setReg vf (flagByte flag)).setReg x b

end Sys2Proof.Machine
end

