-- ==== Sys2Proof/Machine/Alu.lean ====
section
/-! DEFINITION. Machine/Alu.lean: register load, arithmetic, logic, shifts, random (`41_alu.md` R100 to R113). Every one
ends with `pc + 2` and raises nothing. Arithmetic is unsigned and wraps at 8 bits (R112). -/

namespace Sys2Proof.Machine

/-- `6XNN` (R100). -/
def execLdImm (x : Nibble) (nn : Byte) (s : State) : Answer := .next (s.setReg x nn).nextInstr

/-- `7XNN` (R101): no flag. -/
def execAddImm (x : Nibble) (nn : Byte) (s : State) : Answer := .next (s.setReg x (s.reg x + nn)).nextInstr

/-- `8XY0` (R102). -/
def execLdReg (x y : Nibble) (s : State) : Answer := .next (s.setReg x (s.reg y)).nextInstr

/-- `8XY1` (R103): VF is not written. -/
def execOrReg (x y : Nibble) (s : State) : Answer := .next (s.setReg x (s.reg x ||| s.reg y)).nextInstr

/-- `8XY2` (R104): VF is not written. -/
def execAndReg (x y : Nibble) (s : State) : Answer := .next (s.setReg x (s.reg x &&& s.reg y)).nextInstr

/-- `8XY3` (R105): VF is not written. -/
def execXorReg (x y : Nibble) (s : State) : Answer := .next (s.setReg x (s.reg x ^^^ s.reg y)).nextInstr

/-- `8XY4` (R106): VF is the carry out; there is no carry in. -/
def execAddReg (x y : Nibble) (s : State) : Answer :=
  .next (s.setFlagThenReg (carryOut (s.reg x) (s.reg y)) x (s.reg x + s.reg y)).nextInstr

/-- `8XY5` (R107): VF is the not-borrow of `VX - VY`. -/
def execSubReg (x y : Nibble) (s : State) : Answer :=
  .next (s.setFlagThenReg (notBorrow (s.reg x) (s.reg y)) x (s.reg x - s.reg y)).nextInstr

/-- `8XY6` (R108): VF is the old bit 0 of the shifted operand. -/
def execShr (x y : Nibble) (s : State) : Answer :=
  let t := shiftOperand Config.shiftUsesVY s x y
  .next (s.setFlagThenReg (lowBit t) x (t >>> 1)).nextInstr

/-- `8XY7` (R109): VF is the not-borrow of `VY - VX`. -/
def execSubn (x y : Nibble) (s : State) : Answer :=
  .next (s.setFlagThenReg (notBorrow (s.reg y) (s.reg x)) x (s.reg y - s.reg x)).nextInstr

/-- `8XYE` (R110): VF is the old bit 7 of the shifted operand. -/
def execShl (x y : Nibble) (s : State) : Answer :=
  let t := shiftOperand Config.shiftUsesVY s x y
  .next (s.setFlagThenReg (highBit t) x (t <<< 1)).nextInstr

/-- `CXNN` for a given draw (R111): `V[X] <- rand & NN`. -/
def randomInto (draw : Byte) (x : Nibble) (nn : Byte) (s : State) : State := (s.setReg x (draw &&& nn)).nextInstr

/-- `CXNN` (R111). The draw is a FREE VALUE (log 2): the next byte of the unconstrained `Config.rand`. -/
def execRnd (x : Nibble) (nn : Byte) (s : State) : Answer :=
  .next (randomInto (Config.rand s.draws) x nn s.countDraw)

end Sys2Proof.Machine
end

