-- ==== Sys2Proof/Machine/Display.lean ====
section
/-! DEFINITION. Machine/Display.lean: the display instructions (`43_display.md` R140, R141). -/

namespace Sys2Proof.Machine

/-- `00E0` (R140): every row 0; VF is not written. -/
def execCls (s : State) : Answer := .next (s.setDisplay (Vector.replicate 32 0)).nextInstr

/-- The sprite's bytes that will be read are all at valid addresses; none is read when no row is visible (R141). -/
def spriteValid (s : State) (rows : Nat) : Bool := rows == 0 || validAddress (effectiveAddress s (rows - 1))

/-- `DXYN` (R141): both coordinates are read before VF is written; the rows cut off at the bottom are not read; VF is 1
iff some drawn row had a pixel turned off. -/
def execDrw (x y n : Nibble) (s : State) : Answer :=
  let rows := visibleRows s y n
  if spriteValid s rows then
    let drawn := drawRows s (spriteColumn s x) (spriteTop s y) rows
    .next ((s.setReg vf (flagByte drawn.2)).setDisplay drawn.1).nextInstr
  else .next (s.fatalHalt .memReadOob)

end Sys2Proof.Machine
end

