-- ==== Sys2Proof/Machine/Flow.lean ====
section
/-! DEFINITION. Machine/Flow.lean: control transfer (`40_flow.md` R80 to R87). A target is never checked when it is
written; an invalid one is found by the fetch of the next Step (`30_encoding.md` R72). -/

namespace Sys2Proof.Machine

/-- `00EE` (R80): underflow halt at `sp = 0`; else `pc <- stack[sp] + 2` with the old `sp`, then `sp <- sp - 1`. -/
def execRet (s : State) : Answer :=
  if s.stackEmpty then .next (s.fatalHalt .stackUnderflow)
  else .next (s.pop.jumpTo (s.stackTop + 2))

/-- `1NNN` (R81). -/
def execJp (nnn : Addr12) (s : State) : Answer := .next (s.jumpTo (targetOf nnn))

/-- `2NNN` (R82): overflow halt at `sp = 15`; else push the address of this instruction and jump. -/
def execCall (nnn : Addr12) (s : State) : Answer :=
  if s.stackFull then .next (s.fatalHalt .stackOverflow)
  else .next ((s.push s.pc).jumpTo (targetOf nnn))

/-- `3XNN` (R83). -/
def execSeImm (x : Nibble) (nn : Byte) (s : State) : Answer := .next (s.skipIf (s.reg x == nn))

/-- `4XNN` (R84). -/
def execSneImm (x : Nibble) (nn : Byte) (s : State) : Answer := .next (s.skipIf (s.reg x != nn))

/-- `5XYN` (R85); `N` is not examined (`30_encoding.md` R68). -/
def execSeReg (x y _n : Nibble) (s : State) : Answer := .next (s.skipIf (s.reg x == s.reg y))

/-- `9XYN` (R86); `N` is not examined (`30_encoding.md` R68). -/
def execSneReg (x y _n : Nibble) (s : State) : Answer := .next (s.skipIf (s.reg x != s.reg y))

/-- `BNNN` (R87). -/
def execJpV0 (nnn : Addr12) (s : State) : Answer := .next (s.jumpTo (indexedTarget s nnn))

end Sys2Proof.Machine
end

