-- ==== Sys2Proof/Machine/IndexMemory.lean ====
section
/-! DEFINITION. Machine/IndexMemory.lean: the index register and memory transfer (`42_index_memory.md` R120 to R126).
A multi-byte instruction tests its highest address before any access (R126). -/

namespace Sys2Proof.Machine

/-- `ANNN` (R120). -/
def execLdI (nnn : Addr12) (s : State) : Answer := .next (s.setIndex (targetOf nnn)).nextInstr

/-- `FX1E` (R121): VF is written every time; `VX` is read before it; `I` is kept within 12 bits. -/
def execAddI (x : Nibble) (s : State) : Answer :=
  .next ((s.setReg vf (flagByte (indexOverflow s.i (s.reg x)))).setIndex
    ((s.i + (s.reg x).setWidth 16) &&& 0x0FFF)).nextInstr

/-- `FX29` (R122): the whole byte `VX`, with an advisory above 15. -/
def execLdF (x : Nibble) (s : State) : Answer :=
  .next ((s.setIndex (glyphAddress (s.reg x))).nextAdvised (digitAdvisory (s.reg x)))

/-- `FX33` (R123): hundreds, tens and ones at `I`, `I + 1`, `I + 2`. -/
def execLdB (x : Nibble) (s : State) : Answer :=
  if validAddress (effectiveAddress s 2) then
    .next (s.writeBytes (effectiveAddress s 0)
      [hundredsDigit (s.reg x), tensDigit (s.reg x), onesDigit (s.reg x)]).nextInstr
  else .next (s.fatalHalt .memWriteOob)

/-- `FX55` (R124): `V0 .. VX` to `mem[I] .. mem[I + X]`. -/
def execStoreRegs (x : Nibble) (s : State) : Answer :=
  if validAddress (effectiveAddress s x.toNat) then
    .next ((s.storeRegsFrom (effectiveAddress s 0) (transferCount x)).setIndex
      (indexAfterTransfer Config.loadStoreIncrementsI s x)).nextInstr
  else .next (s.fatalHalt .memWriteOob)

/-- `FX65` (R125): `mem[I] .. mem[I + X]` to `V0 .. VX`. -/
def execLoadRegs (x : Nibble) (s : State) : Answer :=
  if validAddress (effectiveAddress s x.toNat) then
    .next ((s.loadRegsFrom (effectiveAddress s 0) (transferCount x)).setIndex
      (indexAfterTransfer Config.loadStoreIncrementsI s x)).nextInstr
  else .next (s.fatalHalt .memReadOob)

end Sys2Proof.Machine
end

