-- ==== Sys2Proof/Machine/KeypadTimers.lean ====
section
/-! DEFINITION. Machine/KeypadTimers.lean: keypad and timer instructions (`44_keypad_timers.md` R150 to R156). -/

namespace Sys2Proof.Machine

/-- `EX9E` (R150). -/
def execSkp (x : Nibble) (s : State) : Answer :=
  .next (s.skipIfAdvised (pressed s (s.reg x)) (keyAdvisory (s.reg x)))

/-- `EXA1` (R151). -/
def execSknp (x : Nibble) (s : State) : Answer :=
  .next (s.skipIfAdvised (!pressed s (s.reg x)) (keyAdvisory (s.reg x)))

/-- `FX07` (R152). -/
def execLdVxDt (x : Nibble) (s : State) : Answer := .next (s.setReg x s.dt).nextInstr

/-- `FX0A` (R153): the least pressed key, or nothing changes and the same instruction is fetched again. -/
def execLdVxK (x : Nibble) (s : State) : Answer :=
  match leastPressedKey s with
  | some k => .next (s.setReg x (BitVec.ofNat 8 k)).nextInstr
  | none => .next s.wait

/-- `FX15` (R154). -/
def execLdDtVx (x : Nibble) (s : State) : Answer := .next (s.setDelay (s.reg x)).nextInstr

/-- `FX18` (R155). -/
def execLdStVx (x : Nibble) (s : State) : Answer := .next (s.setSound (s.reg x)).nextInstr

end Sys2Proof.Machine
end

