-- ==== Sys2Proof/Machine/Step.lean ====
section
/-! DEFINITION. Machine/Step.lean: one Step (`30_encoding.md` R70), in the order of its phases (`60_exceptions.md` R179).
It always answers a next state: a refused Step, a fatal halt and an unrecognized word each have a stated effect. -/

namespace Sys2Proof.Machine

/-- CHECK, FETCH, DECODE, EXECUTE. -/
def step (s : State) : Host.Outcome State Fault Refusal :=
  if s.loaded then
    if s.fetchValid then
      match decodeWord s.fetchWord with
      | .ok i => exec i s
      | .error _ => .next s.unrecognized
    else .next (s.fatalHalt .fetchOob)
  else .next s.refuseStep

/-- `s` with the opcode table's word (the low `nbits` bits of `w`) laid out where the next Step fetches, loaded
(log 11). -/
def State.withFetchWord (s : State) (nbits w : Nat) : State :=
  s.placeAtFetch [highByte (tableWord nbits w), lowByte (tableWord nbits w)]

end Sys2Proof.Machine
end

