-- ==== Sys2Proof/Machine/Agents.lean ====
section
/-! DEFINITION. Machine/Agents.lean: the operations of `00_scope.md` R6 that are not Step. Each is atomic, works whether
or not a program is loaded (`60_exceptions.md` R174), and changes nothing but what is written here (`10_state.md` R32).
None of them touches the last Step's result, which is not theirs. -/

namespace Sys2Proof.Machine

/-- `Reset(now0)` (`70_reset_and_hazards.md` R200): everything at its reset value. The model's count of random draws
goes on, so that a reset machine does not draw the same bytes again (log 2). -/
def State.resetOperation (s : State) (now0 : Nat) : State := { State.resetAt now0 with draws := s.draws }

/-- `Install` accepts an image of 1 to 3584 bytes (`70_reset_and_hazards.md` R204). -/
def imageAccepted (bytes : List Byte) : Bool :=
  decide (1 ≤ bytes.length) && decide (bytes.length ≤ Config.progMaxLen)

/-- `Install(bytes)` (`70_reset_and_hazards.md` R204, R205, R208): an accepted image is written from 0x200 up, `loaded`
is set and `fault_cause` cleared; a rejected one changes nothing. -/
def State.install (s : State) (bytes : List Byte) : State :=
  if imageAccepted bytes then
    { s.writeBytes Config.progBase bytes with loaded := true, faultCause := .none }
  else s

/-- `KeyEvent(k, pressed)` (`60_exceptions.md` R186). -/
def State.keyEvent (s : State) (k : Nibble) (isPressed : Bool) : State :=
  { s with key := s.key.set k.toNat isPressed k.isLt }

/-- A timer that is not 0 counts down by 1 (`60_exceptions.md` R183). -/
def countDown (t : Byte) : Byte := if t = 0 then 0 else t - 1

/-- `Tick(now)` for a given `TICK_PERIOD` (`60_exceptions.md` R183). A `now` earlier than `timer_ref` is refused by name
(`93_implementation_defined.md` U9, log 5). -/
def State.tickWith (period : Nat) (s : State) (now : Nat) : Answer :=
  if now < s.timerRef then .refused .timeBackwards
  else if now - s.timerRef ≥ period then
    .next { s with dt := countDown s.dt, st := countDown s.st, timerRef := now }
  else .next s

/-- `Tick(now)` (`60_exceptions.md` R183). `TICK_PERIOD` is a FREE VALUE (log 3). -/
def State.tick (s : State) (now : Nat) : Answer := s.tickWith Config.tickPeriod now

/-- `DisplaySnapshot()`: the 32 row words, `disp[0]` first (`60_exceptions.md` R188). -/
def State.displaySnapshot (s : State) : Vector PixelRow 32 := s.disp

end Sys2Proof.Machine
end

