-- ==== Sys2Proof/Machine/Operations.lean ====
section
/-! DEFINITION. Machine/Operations.lean: the six operations of `00_scope.md` R6 as one transition, and a sequence of them.
Any sequence, in any order and ratio, is legal (R7): an interleaving of the agents is a list of operations. -/

namespace Sys2Proof.Machine

/-- The six atomic operations (R6). The draw of a Step is not an argument: it is the free value `Config.rand` (log 2). -/
inductive Operation where
  | reset (now0 : Nat)
  | install (bytes : List Byte)
  | keyEvent (k : Nibble) (isPressed : Bool)
  | tick (now : Nat)
  | step
  | displaySnapshot
  deriving DecidableEq, Repr

/-- What an operation gives back to the host (R6). -/
inductive Reply where
  /-- `Reset`, `KeyEvent` and `Tick` give nothing back. -/
  | nothing
  /-- `Install`: accepted or rejected. -/
  | install (accepted : Bool)
  /-- `Step`: its result. -/
  | step (result : StepResult)
  /-- `DisplaySnapshot`: the 32 row words. -/
  | display (rows : Vector PixelRow 32)
  deriving DecidableEq, Repr

/-- The state an operation leaves. -/
def operate (op : Operation) (s : State) : Answer :=
  match op with
  | .reset now0 => .next (s.resetOperation now0)
  | .install bytes => .next (s.install bytes)
  | .keyEvent k isPressed => .next (s.keyEvent k isPressed)
  | .tick now => s.tick now
  | .step => step s
  | .displaySnapshot => .next s

/-- What an operation gives back, from the state before it and the state it leaves. -/
def replyOf (op : Operation) (before after : State) : Reply :=
  match op with
  | .reset _ | .keyEvent _ _ | .tick _ => .nothing
  | .install bytes => .install (imageAccepted bytes)
  | .step => .step after.result
  | .displaySnapshot => .display before.displaySnapshot

/-- The operations of a list, one after another, up to the first that has no next state. -/
def operateAll : List Operation → State → Answer
  | [], s => .next s
  | op :: ops, s =>
    match operate op s with
    | .next t => operateAll ops t
    | .fault r => .fault r
    | .refused r => .refused r

end Sys2Proof.Machine
end

