-- ==== Sys2Proof/Safety.lean ====
section
/-! DEFINITION. Safety.lean: the terms claims are stated in: a state in which a run goes well, the invariant of the
machine, and what two states have in common (frames). -/

namespace Sys2Proof

open Sys2Proof.Machine

/-- "The run went well": `loaded = 1` and `fault_cause = NONE` (`60_exceptions.md` R174). -/
def Safety.running (s : State) : Prop := s.loaded = true ∧ s.faultCause = .none

/-- What every operation keeps. -/
structure Safety.Inv (s : State) : Prop where
  /-- Memory is in its canonical form (`20_memory.md` R41). -/
  memory : s.mem.wf = true
  /-- `I <= 0x0FFF` (`10_state.md` R15). -/
  index : s.i.toNat ≤ 0x0FFF
  /-- `pc <= 0x10FE` (`20_memory.md` R44). -/
  counter : s.pc.toNat ≤ 0x10FE
  /-- `stack[0]` keeps its reset value 0 (`10_state.md` R17). -/
  slotZero : s.stack[0] = 0
  /-- Every stacked value is the address of a fetched call, at most 0xFFE (`40_flow.md` R80). -/
  stacked : ∀ j : Fin 16, s.stack[j].toNat ≤ 0x0FFE
  /-- `fault_cause` is `NONE` while a program is loaded (`60_exceptions.md` R171, R172, `70_reset_and_hazards.md`
  R204). -/
  cause : s.loaded = true → s.faultCause = .none

/-- The pieces of the state (`10_state.md` R10 to R26, and the model's own two). -/
inductive Safety.Part where
  | v | pc | i | sp | stack | dt | st | key | disp | loaded | faultCause | timerRef | mem | result | draws
  deriving DecidableEq, Repr

/-- A piece of the state is the same in `s` and `t`. Memory is compared byte by byte, at every address. -/
def Safety.Keeps (s t : State) : Safety.Part → Prop
  | .v => ∀ r, t.reg r = s.reg r
  | .pc => t.pc = s.pc
  | .i => t.i = s.i
  | .sp => t.sp = s.sp
  | .stack => t.stack = s.stack
  | .dt => t.dt = s.dt
  | .st => t.st = s.st
  | .key => t.key = s.key
  | .disp => t.disp = s.disp
  | .loaded => t.loaded = s.loaded
  | .faultCause => t.faultCause = s.faultCause
  | .timerRef => t.timerRef = s.timerRef
  | .mem => ∀ a, t.read a = s.read a
  | .result => t.result = s.result
  | .draws => t.draws = s.draws

/-- Every piece of the state not in the list is the same in `s` and `t`. -/
def Safety.KeepsAllBut (parts : List Safety.Part) (s t : State) : Prop := ∀ p, p ∉ parts → Safety.Keeps s t p

/-- The Step ended with `OK` and the program counter on the next instruction; besides these two nothing but the listed
pieces changed. -/
def Safety.Sequential (parts : List Safety.Part) (s t : State) : Prop :=
  t.pc = s.pc + 2 ∧ t.result = ⟨.ok, .none, .none⟩ ∧ Safety.KeepsAllBut (.pc :: .result :: parts) s t

/-- The Step ended in a fatal halt of the cause `c`: `loaded` cleared, the cause recorded and returned, nothing else
changed (`60_exceptions.md` R172, R173). -/
def Safety.Halted (c : FaultCause) (s t : State) : Prop :=
  t.loaded = false ∧ t.faultCause = c ∧ t.result = ⟨.halted, c, .none⟩ ∧
    Safety.KeepsAllBut [.loaded, .faultCause, .result] s t

/-- Every data register not in the list is the same in `s` and `t`. -/
def Safety.RegsKeptBut (rs : List Nibble) (s t : State) : Prop := ∀ r, r ∉ rs → t.reg r = s.reg r

/-- The fatal halt an instruction raises in a state, by the conditions of `60_exceptions.md` R171 (`NONE`: it raises
none). The row of `FETCH_OOB` is not an instruction's. -/
def Safety.haltCause (s : State) : Instr → FaultCause
  | .drw _ y n =>
    if 0 < min n.toNat (32 - (s.reg y).toNat % 32) ∧
        s.i.toNat + (min n.toNat (32 - (s.reg y).toNat % 32) - 1) ≥ 4096 then .memReadOob else .none
  | .loadRegs x => if s.i.toNat + x.toNat ≥ 4096 then .memReadOob else .none
  | .ldB _ => if s.i.toNat + 2 ≥ 4096 then .memWriteOob else .none
  | .storeRegs x => if s.i.toNat + x.toNat ≥ 4096 then .memWriteOob else .none
  | .call _ => if s.sp = 15 then .stackOverflow else .none
  | .ret => if s.sp = 0 then .stackUnderflow else .none
  | .cls | .jp _ | .seImm _ _ | .sneImm _ _ | .seReg _ _ _ | .ldImm _ _ | .addImm _ _ | .ldReg _ _ | .orReg _ _
  | .andReg _ _ | .xorReg _ _ | .addReg _ _ | .subReg _ _ | .shr _ _ | .subn _ _ | .shl _ _ | .sneReg _ _ _ | .ldI _
  | .jpV0 _ | .rnd _ _ | .skp _ | .sknp _ | .ldVxDt _ | .ldVxK _ | .ldDtVx _ | .ldStVx _ | .addI _ | .ldF _ => .none

/-- The advisory an instruction gives in a state, by the conditions of `60_exceptions.md` R177 (`NONE`: it gives none).
The row of `UNKNOWN_OPCODE` is not an instruction's. -/
def Safety.advisoryOf (s : State) : Instr → Advisory
  | .ldF x => if (s.reg x).toNat > 15 then .fontDigitRange else .none
  | .skp x | .sknp x => if (s.reg x).toNat ≥ 16 then .keyIndexRange else .none
  | .cls | .ret | .jp _ | .call _ | .seImm _ _ | .sneImm _ _ | .seReg _ _ _ | .ldImm _ _ | .addImm _ _ | .ldReg _ _
  | .orReg _ _ | .andReg _ _ | .xorReg _ _ | .addReg _ _ | .subReg _ _ | .shr _ _ | .subn _ _ | .shl _ _
  | .sneReg _ _ _ | .ldI _ | .jpV0 _ | .rnd _ _ | .drw _ _ _ | .ldVxDt _ | .ldVxK _ | .ldDtVx _ | .ldStVx _ | .addI _
  | .ldB _ | .storeRegs _ | .loadRegs _ => .none

/-- What the Executor may write when it performs an instruction, by the first column of `10_state.md` R32. Every
instruction may write `pc`, and every Step gives a result; a fatal halt clears `loaded` and sets `fault_cause`. -/
def Safety.executorWrites : Instr → List Safety.Part
  | .cls => [.pc, .result, .disp]
  | .drw _ _ _ => [.pc, .result, .disp, .v, .loaded, .faultCause]
  | .ret | .call _ => [.pc, .result, .sp, .stack, .loaded, .faultCause]
  | .jp _ | .jpV0 _ | .seImm _ _ | .sneImm _ _ | .seReg _ _ _ | .sneReg _ _ _ | .skp _ | .sknp _ => [.pc, .result]
  | .ldImm _ _ | .addImm _ _ | .ldReg _ _ | .orReg _ _ | .andReg _ _ | .xorReg _ _ | .addReg _ _ | .subReg _ _
  | .shr _ _ | .subn _ _ | .shl _ _ | .ldVxDt _ | .ldVxK _ => [.pc, .result, .v]
  | .rnd _ _ => [.pc, .result, .v, .draws]
  | .ldI _ | .ldF _ => [.pc, .result, .i]
  | .addI _ => [.pc, .result, .i, .v]
  | .ldDtVx _ => [.pc, .result, .dt]
  | .ldStVx _ => [.pc, .result, .st]
  | .ldB _ | .storeRegs _ => [.pc, .result, .mem, .loaded, .faultCause]
  | .loadRegs _ => [.pc, .result, .v, .loaded, .faultCause]

/-- What an operation that is neither a Step nor a Reset may write, by the other columns of `10_state.md` R32. -/
def Safety.agentWrites : Operation → List Safety.Part
  | .install _ => [.mem, .loaded, .faultCause]
  | .keyEvent _ _ => [.key]
  | .tick _ => [.dt, .st, .timerRef]
  | .displaySnapshot => []
  | .step | .reset _ => []

/-- An operation after which a halted machine may run again: Reset or an accepted Install (`60_exceptions.md` R175). -/
def Safety.relaunches : Operation → Bool
  | .reset _ => true
  | .install bytes => imageAccepted bytes
  | .keyEvent _ _ | .tick _ | .step | .displaySnapshot => false

/-- The operations that may stand between Install and the first Step (`70_reset_and_hazards.md` R206). -/
def Safety.betweenInstallAndStep : Operation → Bool
  | .keyEvent _ _ | .tick _ => true
  | .reset _ | .install _ | .step | .displaySnapshot => false

/-- The keys after a sequence of operations that starts with none pressed: each key event sets its own key
(`60_exceptions.md` R186). -/
def Safety.keysAfter : List Operation → Vector Bool 16 → Vector Bool 16
  | [], keys => keys
  | .keyEvent k isPressed :: ops, keys => Safety.keysAfter ops (keys.set k.toNat isPressed k.isLt)
  | .reset _ :: ops, keys | .install _ :: ops, keys | .tick _ :: ops, keys | .step :: ops, keys
  | .displaySnapshot :: ops, keys => Safety.keysAfter ops keys

/-- The instructions that write VF as a flag (`10_state.md` R11). -/
def Safety.writesFlag : Instr → Bool
  | .addReg _ _ | .subReg _ _ | .shr _ _ | .subn _ _ | .shl _ _ | .addI _ | .drw _ _ _ => true
  | .cls | .ret | .jp _ | .call _ | .seImm _ _ | .sneImm _ _ | .seReg _ _ _ | .ldImm _ _ | .addImm _ _ | .ldReg _ _
  | .orReg _ _ | .andReg _ _ | .xorReg _ _ | .sneReg _ _ _ | .ldI _ | .jpV0 _ | .rnd _ _ | .skp _ | .sknp _
  | .ldVxDt _ | .ldVxK _ | .ldDtVx _ | .ldStVx _ | .ldF _ | .ldB _ | .storeRegs _ | .loadRegs _ => false

/-- The destination register `X` an instruction names, where it has one; for `FX65` the last register loaded. -/
def Safety.destination : Instr → Option Nibble
  | .ldImm x _ | .addImm x _ | .ldReg x _ | .orReg x _ | .andReg x _ | .xorReg x _ | .addReg x _ | .subReg x _
  | .shr x _ | .subn x _ | .shl x _ | .rnd x _ | .ldVxDt x | .ldVxK x | .loadRegs x => some x
  | .cls | .ret | .jp _ | .call _ | .seImm _ _ | .sneImm _ _ | .seReg _ _ _ | .sneReg _ _ _ | .ldI _ | .jpV0 _
  | .drw _ _ _ | .skp _ | .sknp _ | .ldDtVx _ | .ldStVx _ | .addI _ | .ldF _ | .ldB _ | .storeRegs _ => none

end Sys2Proof
end

