-- ==== Sys2Proof/Certificates/Slice0/Obligations.lean ====
section
/-! DEFINITION. Certificates/Slice0/Obligations.lean: the statements about the machine. Each docstring names the rule of
the spec it formalises. A statement that reads memory back assumes memory's canonical form, which
`StepKeepsInvariant` and `OperationsKeepInvariant` keep and `ResetMeetsInvariant` starts. -/

open Sys2Proof Sys2Proof.Machine Sys2Proof.Safety

/-! ### Reset -/

/-- `10_state.md` R30, `70_reset_and_hazards.md` R200: what Reset leaves, from whatever state. -/
def Obligations.ResetLeavesTableValues : Prop :=
  ∀ (s : State) (now0 : Nat), ∃ t, operate (.reset now0) s = .next t ∧
    (∀ r, t.reg r = 0) ∧ t.pc = 0x200 ∧ t.i = 0 ∧ t.sp = 0 ∧ (∀ j : Fin 16, t.stack[j] = 0) ∧
    t.dt = 0 ∧ t.st = 0 ∧ (∀ k : Fin 16, t.key[k] = false) ∧ (∀ y : Fin 32, t.disp[y] = 0) ∧
    t.loaded = false ∧ t.faultCause = .none ∧ t.timerRef = now0 ∧
    (∀ a, a < 0x50 → t.read a = Config.fontTable.getD a 0) ∧ (∀ a, 0x50 ≤ a → a < 4096 → t.read a = 0)

/-! ### Encoding -/

/-- `30_encoding.md` R61 to R63: every instruction, with every operand, is read back from its word, and from its two
bytes with whatever follows them. -/
def Obligations.DecodeOfEncode : Prop :=
  ∀ (i : Instr) (rest : List Byte),
    decodeWord (encode i) = .ok i ∧ decode (encodeBytes i ++ rest) = .ok (i, rest)

/-- `30_encoding.md` R61 to R63: a recognized word is the encoding of the instruction it decodes to, so no bit of it is
dropped and no two words are one instruction. For groups 5 and 9 and the two shifts this rests on the model's own choice
(log 14, DESIGN CHOICE) to keep the ignored nibble and the unused `Y` as operands of the syntax: by R68 `5XYN` executes
as `5XY0` and `9XYN` as `9XY0`, and by R108 and R110 this hardware does not use the `Y` of the shifts. -/
def Obligations.EncodeOfDecode : Prop := ∀ (w : Word) (i : Instr), decodeWord w = .ok i → encode i = w

/-- `30_encoding.md` R63: a word is an instruction of a row iff it matches the row's mask and match; no two rows
overlap. -/
def Obligations.WordIsOfRowIffMaskMatches : Prop :=
  ∀ (w : Word) (i₀ : Instr),
    w &&& (opcodeRow i₀).1 = (opcodeRow i₀).2 ↔ ∃ i, decodeWord w = .ok i ∧ opcodeRow i = opcodeRow i₀

/-- `30_encoding.md` R64: the recognized values of the secondary key of groups 0, 8, E and F; every word of the other
groups is an instruction. -/
def Obligations.SecondaryKeysRecognized : Prop :=
  ∀ w : Word, (∃ i, decodeWord w = .ok i) ↔
    (opGroup w = 0x0 ∧ opNNN w ∈ [0x0E0, 0x0EE]) ∨
    (opGroup w = 0x8 ∧ opN w ∈ [0, 1, 2, 3, 4, 5, 6, 7, 0xE]) ∨
    (opGroup w = 0xE ∧ opNN w ∈ [0x9E, 0xA1]) ∨
    (opGroup w = 0xF ∧ opNN w ∈ [0x07, 0x0A, 0x15, 0x18, 0x1E, 0x29, 0x33, 0x55, 0x65]) ∨
    opGroup w ∈ [0x1, 0x2, 0x3, 0x4, 0x5, 0x6, 0x7, 0x9, 0xA, 0xB, 0xC, 0xD]

/-- Words of the spec's own programs and vectors (`95_test_vectors.md` T30-2 to T30-9, P1 to P4), one of each family. -/
def Obligations.SampleWordsDecode : Prop :=
  decode [0xD5, 0xA7] = .ok (.drw 0x5 0xA 0x7, []) ∧ decode [0x22, 0x08] = .ok (.call 0x208, []) ∧
  decode [0x81, 0x04] = .ok (.addReg 1 0, []) ∧ decode [0xF2, 0x65] = .ok (.loadRegs 2, []) ∧
  decode [0xF0, 0x0A] = .ok (.ldVxK 0, []) ∧ decode [0x01, 0xE0] = .error .group0 ∧
  decode [0x81, 0x28] = .error .group8 ∧ decode [0xE1, 0xA0] = .error .groupE ∧
  decode [0xF1, 0x75] = .error .groupF

/-! ### One Step -/

/-- `30_encoding.md` R70, `20_memory.md` R47: when a program is loaded, both bytes at `pc` are valid addresses and the
big-endian word there decodes to `i`, the Step is exactly `exec i`, with nothing around it. -/
def Obligations.StepRunsDecodedInstruction : Prop :=
  ∀ (s : State) (i : Instr), s.loaded = true → s.pc.toNat + 1 < 4096 →
    decodeWord (wordOfBytes (s.read s.pc.toNat) (s.read (s.pc.toNat + 1))) = .ok i → step s = exec i s

/-- `30_encoding.md` R75: a Step on a machine that is not loaded is refused and changes no state. -/
def Obligations.UnloadedStepRefused : Prop :=
  ∀ s : State, s.loaded = false →
    ∃ t, step s = .next t ∧ t.result = ⟨.refused, s.faultCause, .none⟩ ∧ KeepsAllBut [.result] s t

/-- `30_encoding.md` R72: the fetch test is on the unbounded sum `pc + 1`; a Step that fails it is a fatal halt with
`pc` unchanged. -/
def Obligations.FetchOutOfBoundsHalts : Prop :=
  ∀ s : State, s.loaded = true → s.pc.toNat + 1 ≥ 4096 → ∃ t, step s = .next t ∧ Halted .fetchOob s t

/-- `30_encoding.md` R66: an unrecognized word advances `pc` by 2 with the advisory `UNKNOWN_OPCODE`, nothing else. -/
def Obligations.UnrecognizedWordOnlyAdvances : Prop :=
  ∀ (s : State) (e : DecodeError), s.loaded = true → s.pc.toNat + 1 < 4096 →
    decodeWord (wordOfBytes (s.read s.pc.toNat) (s.read (s.pc.toNat + 1))) = .error e →
    ∃ t, step s = .next t ∧ t.pc = s.pc + 2 ∧ t.result = ⟨.ok, .none, .unknownOpcode⟩ ∧
      KeepsAllBut [.pc, .result] s t

/-- `30_encoding.md` R71: every Step answers, and its result is runnable iff `loaded = 1` after it; an advisory comes
only with `OK`, a cause only with `HALTED` or `REFUSED`. -/
def Obligations.StepAnswersRunnableIffLoaded : Prop :=
  ∀ s : State, ∃ t, step s = .next t ∧ (t.result.runnable = true ↔ t.loaded = true) ∧
    (t.result.advisory ≠ .none → t.result.status = .ok) ∧
    (t.result.cause ≠ .none → t.result.status = .halted ∨ t.result.status = .refused)

/-- The model's own choice (log 11, over `30_encoding.md` R72): a word of the opcode table that `withFetchWord` lays out
is what the next Step runs. -/
def Obligations.PlacedWordRuns : Prop :=
  ∀ (s : State) (w : Nat) (i : Instr), s.mem.wf = true → decodeTableWord 16 w = some i →
    step (s.withFetchWord 16 w) = exec i (s.withFetchWord 16 w)

/-! ### Fatal halts -/

/-- `60_exceptions.md` R172, R173: a Step that raises a fatal halt clears `loaded`, records and returns the cause, and
changes nothing else. -/
def Obligations.FatalHaltsArePrecise : Prop :=
  ∀ s t : State, step s = .next t → t.result.status = .halted →
    t.faultCause ≠ .none ∧ Halted t.faultCause s t

/-- `60_exceptions.md` R171: which Step raises which fatal halt, the codes, and that no other instruction raises one. -/
def Obligations.HaltCausesAreExactly : Prop :=
  (∀ (i : Instr) (s : State), ∃ t, exec i s = .next t ∧ t.result.cause = haltCause s i ∧
    (t.result.status = .halted ↔ haltCause s i ≠ .none)) ∧
  (∀ s t : State, s.loaded = true → step s = .next t →
    (t.result.cause = .fetchOob ↔ s.pc.toNat + 1 ≥ 4096)) ∧
  FaultCause.none.code = 0 ∧ FaultCause.fetchOob.code = 1 ∧ FaultCause.memReadOob.code = 2 ∧
  FaultCause.memWriteOob.code = 3 ∧ FaultCause.stackOverflow.code = 4 ∧ FaultCause.stackUnderflow.code = 5

/-- `60_exceptions.md` R177: which Step gives which advisory, the codes, and that no other Step gives one. -/
def Obligations.AdvisoriesAreExactly : Prop :=
  (∀ (i : Instr) (s : State), ∃ t, exec i s = .next t ∧ t.result.advisory = advisoryOf s i) ∧
  (∀ s t : State, step s = .next t →
    (t.result.advisory = .unknownOpcode ↔
      s.loaded = true ∧ s.pc.toNat + 1 < 4096 ∧ ∃ e, decodeWord s.fetchWord = .error e)) ∧
  Advisory.none.code = 0 ∧ Advisory.unknownOpcode.code = 1 ∧ Advisory.fontDigitRange.code = 2 ∧
  Advisory.keyIndexRange.code = 3

/-- `60_exceptions.md` R174 (which the spec marks as derived), R175: through any operations but a Reset and an accepted
Install, a machine that is not loaded stays so, keeps its cause, and executes nothing; only timers, keys and the time
reference can change. -/
def Obligations.HaltedMachineStaysHalted : Prop :=
  ∀ (ops : List Operation) (s t : State), s.loaded = false → (∀ op ∈ ops, relaunches op = false) →
    operateAll ops s = .next t →
    t.loaded = false ∧ t.faultCause = s.faultCause ∧ KeepsAllBut [.dt, .st, .key, .timerRef, .result] s t

/-! ### The invariant -/

/-- The invariant holds after Reset, from whatever state (`10_state.md` R30). Its clause on canonical memory is the
model's own form (log 12, DESIGN CHOICE). The spec marks R15 (`I <= 0xFFF`), R44 (`pc <= 0x10FE`) and R17
(`stack[0] = 0`) as its own inferences; the others follow R80 (stacked addresses) and R171, R172, R204 (no recorded cause
while loaded). `State.reset` takes the time stamp 0 (log 4), which the invariant does not look at. -/
def Obligations.ResetMeetsInvariant : Prop :=
  Inv State.reset ∧ ∀ (s : State) (now0 : Nat), ∃ t, operate (.reset now0) s = .next t ∧ Inv t

/-- Every Step keeps the invariant: canonical memory (the model's form, log 12), `I <= 0xFFF` (R15), `pc <= 0x10FE`
(R44), `stack[0] = 0` (R17), stacked addresses at most 0xFFE (R80), no recorded cause while loaded (R171, R204). The
spec marks R15, R17 and R44 as its own inferences. -/
def Obligations.StepKeepsInvariant : Prop := ∀ s t : State, Inv s → step s = .next t → Inv t

/-- Every sequence of the six operations keeps the invariant, in any order and ratio (`00_scope.md` R7). Its clause on
canonical memory is the model's own form (log 12, DESIGN CHOICE), and that a sequence is a list of operations is log 1
(DESIGN CHOICE). The spec marks R15 (`I <= 0xFFF`), R44 (`pc <= 0x10FE`) and R17 (`stack[0] = 0`) as its own inferences;
the others follow R80 (stacked addresses) and R171, R172, R204 (no recorded cause while loaded). -/
def Obligations.OperationsKeepInvariant : Prop :=
  ∀ (ops : List Operation) (s t : State), Inv s → operateAll ops s = .next t → Inv t

/-! ### Who writes what -/

/-- `10_state.md` R32: what each instruction and each operation may write. -/
def Obligations.WritersOfEachPiece : Prop :=
  (∀ (i : Instr) (s t : State), exec i s = .next t → KeepsAllBut (executorWrites i) s t ∧
    ((∃ x, i = .addI x) ∨ (∃ x y n, i = .drw x y n) → RegsKeptBut [vf] s t) ∧
    (t.loaded ≠ s.loaded ∨ t.faultCause ≠ s.faultCause → t.result.status = .halted ∧ t.loaded = false)) ∧
  (∀ (op : Operation) (s t : State), s.mem.wf = true → op ≠ .step → (∀ now0, op ≠ .reset now0) →
    operate op s = .next t → KeepsAllBut (agentWrites op) s t ∧
      (t.loaded ≠ s.loaded → t.loaded = true) ∧ (t.faultCause ≠ s.faultCause → t.faultCause = .none) ∧
      (∀ bytes a, op = .install bytes → a < 0x200 ∨ 0x200 + bytes.length ≤ a → t.read a = s.read a))

/-- `10_state.md` R11: VF changes only by an instruction that writes it as a flag, or that names it as its destination;
a flag is exactly 0x00 or 0x01. -/
def Obligations.FlagRegisterWriters : Prop :=
  ∀ (i : Instr) (s t : State), exec i s = .next t →
    (t.reg vf ≠ s.reg vf → writesFlag i = true ∨ destination i = some vf) ∧
    (writesFlag i = true → destination i ≠ some vf → t.result.status = .ok → t.reg vf = 0x00 ∨ t.reg vf = 0x01)

/-! ### Control transfer -/

/-- `40_flow.md` R81. -/
def Obligations.JumpSetsCounter : Prop :=
  ∀ (nnn : Addr12) (s : State), ∃ t, exec (.jp nnn) s = .next t ∧ t.pc = nnn.setWidth 16 ∧
    t.result = ⟨.ok, .none, .none⟩ ∧ KeepsAllBut [.pc, .result] s t

/-- `40_flow.md` R87: the exact sum, never masked or truncated. -/
def Obligations.IndexedJumpAddsV0 : Prop :=
  ∀ (nnn : Addr12) (s : State), ∃ t, exec (.jpV0 nnn) s = .next t ∧
    t.pc.toNat = nnn.toNat + (s.reg 0).toNat ∧ t.pc.toNat ≤ 0x10FE ∧
    t.result = ⟨.ok, .none, .none⟩ ∧ KeepsAllBut [.pc, .result] s t

/-- `40_flow.md` R82. -/
def Obligations.CallPushesCallSite : Prop :=
  ∀ (nnn : Addr12) (s : State),
    (s.sp.val < 15 → ∃ t, exec (.call nnn) s = .next t ∧ t.pc = nnn.setWidth 16 ∧ t.sp.val = s.sp.val + 1 ∧
      (∀ j : Fin 16, t.stack[j] = if j.val = s.sp.val + 1 then s.pc else s.stack[j]) ∧
      t.result = ⟨.ok, .none, .none⟩ ∧ KeepsAllBut [.pc, .result, .sp, .stack] s t) ∧
    (s.sp.val = 15 → ∃ t, exec (.call nnn) s = .next t ∧ Halted .stackOverflow s t)

/-- `40_flow.md` R80. -/
def Obligations.ReturnPopsCallSite : Prop :=
  ∀ s : State,
    (s.sp.val ≠ 0 → ∃ t, exec .ret s = .next t ∧ t.pc = s.stack[s.sp] + 2 ∧ t.sp.val + 1 = s.sp.val ∧
      t.result = ⟨.ok, .none, .none⟩ ∧ KeepsAllBut [.pc, .result, .sp] s t) ∧
    (s.sp.val = 0 → ∃ t, exec .ret s = .next t ∧ Halted .stackUnderflow s t)

/-- `95_test_vectors.md` S7 (`40_flow.md` R80, R82): a return from any state that has the stack a call left goes to the
instruction after the call and restores `sp`. -/
def Obligations.CallThenReturn : Prop :=
  ∀ (nnn : Addr12) (s t u : State), s.sp.val < 15 → exec (.call nnn) s = .next t → u.sp = t.sp →
    u.stack = t.stack → ∃ w, exec .ret u = .next w ∧ w.pc = s.pc + 2 ∧ w.sp = s.sp

/-- `40_flow.md` R83, R84. -/
def Obligations.SkipOnImmediate : Prop :=
  ∀ (x : Nibble) (nn : Byte) (s : State),
    (∃ t, exec (.seImm x nn) s = .next t ∧ t.pc = (if s.reg x = nn then s.pc + 4 else s.pc + 2) ∧
      t.result = ⟨.ok, .none, .none⟩ ∧ KeepsAllBut [.pc, .result] s t) ∧
    (∃ t, exec (.sneImm x nn) s = .next t ∧ t.pc = (if s.reg x ≠ nn then s.pc + 4 else s.pc + 2) ∧
      t.result = ⟨.ok, .none, .none⟩ ∧ KeepsAllBut [.pc, .result] s t)

/-- `40_flow.md` R85, R86, for every value of the ignored nibble (`30_encoding.md` R68). -/
def Obligations.SkipOnRegisters : Prop :=
  ∀ (x y n : Nibble) (s : State),
    (∃ t, exec (.seReg x y n) s = .next t ∧ t.pc = (if s.reg x = s.reg y then s.pc + 4 else s.pc + 2) ∧
      t.result = ⟨.ok, .none, .none⟩ ∧ KeepsAllBut [.pc, .result] s t) ∧
    (∃ t, exec (.sneReg x y n) s = .next t ∧ t.pc = (if s.reg x ≠ s.reg y then s.pc + 4 else s.pc + 2) ∧
      t.result = ⟨.ok, .none, .none⟩ ∧ KeepsAllBut [.pc, .result] s t)

/-! ### Arithmetic and logic -/

/-- `41_alu.md` R100, R101: load and wrapping add of an immediate; VF is written only as the destination. -/
def Obligations.LoadAndAddImmediate : Prop :=
  ∀ (x : Nibble) (nn : Byte) (s : State),
    (∃ t, exec (.ldImm x nn) s = .next t ∧ t.reg x = nn ∧ RegsKeptBut [x] s t ∧ Sequential [.v] s t) ∧
    (∃ t, exec (.addImm x nn) s = .next t ∧ (t.reg x).toNat = ((s.reg x).toNat + nn.toNat) % 256 ∧
      RegsKeptBut [x] s t ∧ Sequential [.v] s t)

/-- `41_alu.md` R102 to R105: copy, OR, AND, XOR, bit by bit; VF is written only as the destination. -/
def Obligations.CopyAndLogic : Prop :=
  ∀ (x y : Nibble) (s : State),
    (∃ t, exec (.ldReg x y) s = .next t ∧ t.reg x = s.reg y ∧ RegsKeptBut [x] s t ∧ Sequential [.v] s t) ∧
    (∃ t, exec (.orReg x y) s = .next t ∧
      (∀ k, (t.reg x).getLsbD k = ((s.reg x).getLsbD k || (s.reg y).getLsbD k)) ∧
      RegsKeptBut [x] s t ∧ Sequential [.v] s t) ∧
    (∃ t, exec (.andReg x y) s = .next t ∧
      (∀ k, (t.reg x).getLsbD k = ((s.reg x).getLsbD k && (s.reg y).getLsbD k)) ∧
      RegsKeptBut [x] s t ∧ Sequential [.v] s t) ∧
    (∃ t, exec (.xorReg x y) s = .next t ∧
      (∀ k, (t.reg x).getLsbD k = ((s.reg x).getLsbD k ^^ (s.reg y).getLsbD k)) ∧
      RegsKeptBut [x] s t ∧ Sequential [.v] s t)

/-- `41_alu.md` R106: the sum modulo 256 and the carry of the exact sum, from the operands before the instruction. -/
def Obligations.AddWithCarryOut : Prop :=
  ∀ (x y : Nibble) (s : State), ∃ t, exec (.addReg x y) s = .next t ∧
    (t.reg x).toNat = ((s.reg x).toNat + (s.reg y).toNat) % 256 ∧
    (x ≠ vf → t.reg vf = if (s.reg x).toNat + (s.reg y).toNat > 255 then 0x01 else 0x00) ∧
    RegsKeptBut [x, vf] s t ∧ Sequential [.v] s t

/-- `41_alu.md` R107, R109: both differences modulo 256 with the not-borrow flag. -/
def Obligations.SubtractWithNotBorrow : Prop :=
  ∀ (x y : Nibble) (s : State),
    (∃ t, exec (.subReg x y) s = .next t ∧
      ((t.reg x).toNat : Int) = (((s.reg x).toNat : Int) - (s.reg y).toNat) % 256 ∧
      (x ≠ vf → t.reg vf = if (s.reg x).toNat ≥ (s.reg y).toNat then 0x01 else 0x00) ∧
      RegsKeptBut [x, vf] s t ∧ Sequential [.v] s t) ∧
    (∃ t, exec (.subn x y) s = .next t ∧
      ((t.reg x).toNat : Int) = (((s.reg y).toNat : Int) - (s.reg x).toNat) % 256 ∧
      (x ≠ vf → t.reg vf = if (s.reg y).toNat ≥ (s.reg x).toNat then 0x01 else 0x00) ∧
      RegsKeptBut [x, vf] s t ∧ Sequential [.v] s t)

/-- `41_alu.md` R108, R110: the shifts by one of the operand that `SHIFT_USES_VY` names (for this hardware `VX`), with
the bit shifted out in VF. -/
def Obligations.ShiftsByOne : Prop :=
  Config.shiftUsesVY = false ∧
  ∀ (x y : Nibble) (s : State) (o : Byte), o = (if Config.shiftUsesVY then s.reg y else s.reg x) →
    (∃ t, exec (.shr x y) s = .next t ∧ (t.reg x).toNat = o.toNat / 2 ∧
      (x ≠ vf → (t.reg vf).toNat = o.toNat % 2) ∧ RegsKeptBut [x, vf] s t ∧ Sequential [.v] s t) ∧
    (∃ t, exec (.shl x y) s = .next t ∧ (t.reg x).toNat = 2 * o.toNat % 256 ∧
      (x ≠ vf → (t.reg vf).toNat = o.toNat / 128) ∧ RegsKeptBut [x, vf] s t ∧ Sequential [.v] s t)

/-- `41_alu.md` R113: with `X = F` VF ends holding the result, the flag is lost, and the operands are the old values; so
too where `Y = F`, and with `X = Y` both operands are the one old value. -/
def Obligations.ResultWinsOverFlag : Prop :=
  ∀ (x y : Nibble) (s t : State),
    (exec (.addReg vf y) s = .next t → t.reg vf = s.reg vf + s.reg y) ∧
    (exec (.subReg vf y) s = .next t → t.reg vf = s.reg vf - s.reg y) ∧
    (exec (.subn vf y) s = .next t → t.reg vf = s.reg y - s.reg vf) ∧
    (exec (.shr vf y) s = .next t → t.reg vf = s.reg vf >>> 1) ∧
    (exec (.shl vf y) s = .next t → t.reg vf = s.reg vf <<< 1) ∧
    (exec (.addReg x vf) s = .next t → t.reg x = s.reg x + s.reg vf) ∧
    (exec (.subReg x vf) s = .next t → t.reg x = s.reg x - s.reg vf) ∧
    (exec (.subn x vf) s = .next t → t.reg x = s.reg vf - s.reg x) ∧
    (exec (.addReg x x) s = .next t → t.reg x = 2 * s.reg x) ∧
    (exec (.subReg x x) s = .next t → t.reg x = 0 ∧ (x ≠ vf → t.reg vf = 1))

/-- `41_alu.md` R111: the draw is unconstrained, so what is stated holds for every byte: the result is the draw ANDed
with `NN`, and has no bit outside `NN`. That the draw is the next byte of `Config.rand` is the model's choice (log 2). -/
def Obligations.RandomByteMasked : Prop :=
  ∀ (x : Nibble) (nn : Byte) (s : State),
    (∀ draw : Byte, (randomInto draw x nn s).reg x = draw &&& nn ∧
      RegsKeptBut [x] s (randomInto draw x nn s) ∧ Sequential [.v] s (randomInto draw x nn s)) ∧
    (∃ t, exec (.rnd x nn) s = .next t ∧ t.reg x = Config.rand s.draws &&& nn ∧ t.reg x &&& ~~~nn = 0 ∧
      RegsKeptBut [x] s t ∧ Sequential [.v, .draws] s t)

/-! ### Index register and memory -/

/-- `42_index_memory.md` R120. -/
def Obligations.LoadIndex : Prop :=
  ∀ (nnn : Addr12) (s : State), ∃ t, exec (.ldI nnn) s = .next t ∧ t.i = nnn.setWidth 16 ∧ Sequential [.i] s t

/-- `42_index_memory.md` R121: the exact sum `t` decides the flag; `I` keeps its low 12 bits; `VX` is the old value also
when it is VF. (`I` is a 16-bit register: where the exact sum passes 16 bits, `I & 0xFFF` is still its low 12 bits.) -/
def Obligations.AddToIndex : Prop :=
  ∀ (x : Nibble) (s : State), ∃ t, exec (.addI x) s = .next t ∧
    t.i.toNat = (s.i.toNat + (s.reg x).toNat) % 4096 ∧
    t.reg vf = (if s.i.toNat + (s.reg x).toNat > 0x0FFF then 0x01 else 0x00) ∧
    RegsKeptBut [vf] s t ∧ Sequential [.i, .v] s t

/-- `42_index_memory.md` R122: the whole byte counts, with an advisory above 15. -/
def Obligations.PointAtGlyph : Prop :=
  ∀ (x : Nibble) (s : State), ∃ t, exec (.ldF x) s = .next t ∧
    t.i.toNat = Config.fontBase + 5 * (s.reg x).toNat ∧ t.pc = s.pc + 2 ∧
    t.result = ⟨.ok, .none, if (s.reg x).toNat > 15 then .fontDigitRange else .none⟩ ∧
    KeepsAllBut [.pc, .result, .i] s t

/-- `42_index_memory.md` R123: three digits at `I`, `I + 1`, `I + 2`, or a halt that writes nothing. -/
def Obligations.StoreDecimalDigits : Prop :=
  ∀ (x : Nibble) (s : State), s.mem.wf = true →
    (s.i.toNat + 2 < 4096 → ∃ t, exec (.ldB x) s = .next t ∧
      (t.read s.i.toNat).toNat = (s.reg x).toNat / 100 ∧
      (t.read (s.i.toNat + 1)).toNat = (s.reg x).toNat / 10 % 10 ∧
      (t.read (s.i.toNat + 2)).toNat = (s.reg x).toNat % 10 ∧
      (∀ a, a < s.i.toNat ∨ s.i.toNat + 2 < a → t.read a = s.read a) ∧ Sequential [.mem] s t) ∧
    (s.i.toNat + 2 ≥ 4096 → ∃ t, exec (.ldB x) s = .next t ∧ Halted .memWriteOob s t)

/-- `42_index_memory.md` R124: `V0 .. VX` at `I .. I + X`, every other byte as before; `I` moves only under the quirk,
which this hardware does not take; or a halt that writes nothing. -/
def Obligations.StoreRegisters : Prop :=
  Config.loadStoreIncrementsI = false ∧
  ∀ (x : Nibble) (s : State), s.mem.wf = true →
    (s.i.toNat + x.toNat < 4096 → ∃ t, exec (.storeRegs x) s = .next t ∧
      (∀ r : Nibble, r.toNat ≤ x.toNat → t.read (s.i.toNat + r.toNat) = s.reg r) ∧
      (∀ a, a < s.i.toNat ∨ s.i.toNat + x.toNat < a → t.read a = s.read a) ∧
      t.i = (if Config.loadStoreIncrementsI then s.i + x.setWidth 16 + 1 else s.i) ∧ Sequential [.mem] s t) ∧
    (s.i.toNat + x.toNat ≥ 4096 → ∃ t, exec (.storeRegs x) s = .next t ∧ Halted .memWriteOob s t)

/-- `42_index_memory.md` R125: `I .. I + X` into `V0 .. VX`, the registers above `X` as before; or a halt that writes
nothing. -/
def Obligations.LoadRegisters : Prop :=
  Config.loadStoreIncrementsI = false ∧
  ∀ (x : Nibble) (s : State),
    (s.i.toNat + x.toNat < 4096 → ∃ t, exec (.loadRegs x) s = .next t ∧
      (∀ r : Nibble, t.reg r = if r.toNat ≤ x.toNat then s.read (s.i.toNat + r.toNat) else s.reg r) ∧
      t.i = (if Config.loadStoreIncrementsI then s.i + x.setWidth 16 + 1 else s.i) ∧ Sequential [.v] s t) ∧
    (s.i.toNat + x.toNat ≥ 4096 → ∃ t, exec (.loadRegs x) s = .next t ∧ Halted .memReadOob s t)

/-- `42_index_memory.md` R124, R125: a load with the same `X` from the memory and `I` a store left reads back every
stored register. -/
def Obligations.StoreThenLoadRestores : Prop :=
  ∀ (x : Nibble) (s t u : State), s.mem.wf = true → exec (.storeRegs x) s = .next t → t.result.status = .ok →
    u.mem = t.mem → u.i = t.i →
    ∃ w, exec (.loadRegs x) u = .next w ∧ ∀ r : Nibble, r.toNat ≤ x.toNat → w.reg r = s.reg r

/-- `20_memory.md` R53, which the spec marks as derived: a fetch from bytes that a store has written sees the stored registers, with nothing in
between. -/
def Obligations.StoreSeenByNextFetch : Prop :=
  ∀ (x k : Nibble) (s t u : State), s.mem.wf = true → exec (.storeRegs x) s = .next t → t.result.status = .ok →
    u.mem = t.mem → k.toNat + 1 ≤ x.toNat → u.pc.toNat = s.i.toNat + k.toNat →
    u.fetchWord = wordOfBytes (s.reg k) (s.reg (k + 1))

/-! ### Display -/

/-- `43_display.md` R140. -/
def Obligations.ClearDisplay : Prop :=
  ∀ s : State, ∃ t, exec .cls s = .next t ∧ (∀ y : Fin 32, t.disp[y] = 0) ∧ Sequential [.disp] s t

/-- `43_display.md` R141, with the pattern of R142: the visible rows are XORed, VF is the collision, and nothing else
changes; or, when a visible row lies at 4096 or above, a halt that draws nothing. -/
def Obligations.DrawXorsVisibleRows : Prop :=
  ∀ (x y n : Nibble) (s : State) (x0 y0 rows : Nat), x0 = (s.reg x).toNat % 64 → y0 = (s.reg y).toNat % 32 →
    rows = min n.toNat (32 - y0) →
    (rows = 0 ∨ s.i.toNat + rows - 1 < 4096 → ∃ t, exec (.drw x y n) s = .next t ∧
      (∀ q : Fin 32, t.disp[q] = if y0 ≤ q.val ∧ q.val < y0 + rows
        then s.disp[q] ^^^ spritePattern x0 (s.read (s.i.toNat + (q.val - y0))) else s.disp[q]) ∧
      (t.reg vf = 0x01 ∨ t.reg vf = 0x00) ∧
      (t.reg vf = 0x01 ↔ ∃ q : Fin 32, y0 ≤ q.val ∧ q.val < y0 + rows ∧
        s.disp[q] &&& spritePattern x0 (s.read (s.i.toNat + (q.val - y0))) ≠ 0) ∧
      RegsKeptBut [vf] s t ∧ Sequential [.disp, .v] s t) ∧
    (rows > 0 → s.i.toNat + rows - 1 ≥ 4096 → ∃ t, exec (.drw x y n) s = .next t ∧ Halted .memReadOob s t)

/-- `43_display.md` R142, `10_state.md` R20: pixel by pixel, bit `7 - d` of the byte of row `i` lands on column
`x0 + d`, row `y0 + i`; columns from 64 on and rows from 32 on are discarded, not wrapped. -/
def Obligations.DrawPixelByPixel : Prop :=
  ∀ (x y n : Nibble) (s t : State), exec (.drw x y n) s = .next t → t.result.status = .ok →
    ∀ px py : Nat, px < 64 → py < 32 →
      t.pixel px py = (s.pixel px py ^^
        (decide ((s.reg x).toNat % 64 ≤ px ∧ px < (s.reg x).toNat % 64 + 8) &&
         decide ((s.reg y).toNat % 32 ≤ py ∧ py < (s.reg y).toNat % 32 + n.toNat) &&
         (s.read (s.i.toNat + (py - (s.reg y).toNat % 32))).getLsbD (7 - (px - (s.reg x).toNat % 64))))

/-- `95_test_vectors.md` S6 (`43_display.md` R141): drawing the same sprite twice at the same coordinates restores the
display; on a blank display the second draw reports VF = 1 iff the first drew a pixel. VF is written by the first draw,
so the coordinates are not taken from it. -/
def Obligations.DrawTwiceErases : Prop :=
  ∀ (x y n : Nibble) (s t : State), x ≠ vf → y ≠ vf → exec (.drw x y n) s = .next t → t.result.status = .ok →
    ∃ u, exec (.drw x y n) t = .next u ∧ u.disp = s.disp ∧
      ((∀ q : Fin 32, s.disp[q] = 0) → (u.reg vf = 0x01 ↔ t.disp ≠ s.disp))

/-! ### Keypad and timers -/

/-- `44_keypad_timers.md` R150, R151, R156: the whole byte names the key; from 16 on it counts as not pressed, with an
advisory. -/
def Obligations.SkipOnKey : Prop :=
  ∀ (x : Nibble) (s : State) (isPressed : Bool) (adv : Advisory),
    isPressed = (if h : (s.reg x).toNat < 16 then s.key[(s.reg x).toNat] else false) →
    adv = (if (s.reg x).toNat ≥ 16 then .keyIndexRange else .none) →
    (∃ t, exec (.skp x) s = .next t ∧ t.pc = (if isPressed then s.pc + 4 else s.pc + 2) ∧
      t.result = ⟨.ok, .none, adv⟩ ∧ KeepsAllBut [.pc, .result] s t) ∧
    (∃ t, exec (.sknp x) s = .next t ∧ t.pc = (if isPressed then s.pc + 2 else s.pc + 4) ∧
      t.result = ⟨.ok, .none, adv⟩ ∧ KeepsAllBut [.pc, .result] s t)

/-- `44_keypad_timers.md` R152, R154, R155. -/
def Obligations.MoveTimers : Prop :=
  ∀ (x : Nibble) (s : State),
    (∃ t, exec (.ldVxDt x) s = .next t ∧ t.reg x = s.dt ∧ RegsKeptBut [x] s t ∧ Sequential [.v] s t) ∧
    (∃ t, exec (.ldDtVx x) s = .next t ∧ t.dt = s.reg x ∧ Sequential [.dt] s t) ∧
    (∃ t, exec (.ldStVx x) s = .next t ∧ t.st = s.reg x ∧ Sequential [.st] s t)

/-- `44_keypad_timers.md` R153: the least pressed key goes to `VX`; with no key pressed nothing changes and the Step is
`WAITING`. -/
def Obligations.WaitForKey : Prop :=
  ∀ (x : Nibble) (s : State),
    (∀ k : Fin 16, s.key[k] = true → (∀ j : Fin 16, j < k → s.key[j] = false) →
      ∃ t, exec (.ldVxK x) s = .next t ∧ (t.reg x).toNat = k.val ∧ RegsKeptBut [x] s t ∧ Sequential [.v] s t) ∧
    ((∀ k : Fin 16, s.key[k] = false) →
      ∃ t, exec (.ldVxK x) s = .next t ∧ t.result = ⟨.waiting, .none, .none⟩ ∧ KeepsAllBut [.result] s t)

/-! ### The other agents -/

/-- `60_exceptions.md` R183: a qualifying Tick counts each timer that is not 0 down by exactly 1 and moves the
reference; any other Tick changes nothing. `TICK_PERIOD` is a free value (log 3); the statement holds for every one. -/
def Obligations.TickCountsDown : Prop :=
  (∀ (s : State) (now : Nat), operate (.tick now) s = s.tickWith Config.tickPeriod now) ∧
  ∀ (period : Nat) (s : State) (now : Nat), s.timerRef ≤ now → ∃ t, s.tickWith period now = .next t ∧
    (period ≤ now - s.timerRef → t.dt.toNat = s.dt.toNat - 1 ∧ t.st.toNat = s.st.toNat - 1 ∧ t.timerRef = now) ∧
    (now - s.timerRef < period → t = s) ∧ KeepsAllBut [.dt, .st, .timerRef] s t

/-- `60_exceptions.md` R186, R188: a key event sets its own key and nothing else; a snapshot gives the 32 rows and
changes nothing. -/
def Obligations.KeyEventAndSnapshot : Prop :=
  ∀ (s : State) (k : Nibble) (isPressed : Bool),
    (∃ t, operate (.keyEvent k isPressed) s = .next t ∧
      (∀ j : Fin 16, t.key[j] = if j.val = k.toNat then isPressed else s.key[j]) ∧ KeepsAllBut [.key] s t) ∧
    (∃ t, operate .displaySnapshot s = .next t ∧ replyOf .displaySnapshot s t = .display s.disp ∧ t = s)

/-- `70_reset_and_hazards.md` R204, R205: an image of 1 to 3584 bytes is written from 0x200 up and launches the machine,
nothing else changes; any other is rejected and changes nothing. -/
def Obligations.InstallWritesImage : Prop :=
  ∀ (s : State) (bytes : List Byte), s.mem.wf = true →
    (1 ≤ bytes.length ∧ bytes.length ≤ 3584 → ∃ t, operate (.install bytes) s = .next t ∧
      replyOf (.install bytes) s t = .install true ∧ t.loaded = true ∧ t.faultCause = .none ∧
      (∀ j, j < bytes.length → t.read (0x200 + j) = bytes.getD j 0) ∧
      (∀ a, a < 0x200 ∨ 0x200 + bytes.length ≤ a → t.read a = s.read a) ∧
      KeepsAllBut [.mem, .loaded, .faultCause] s t) ∧
    (bytes.length < 1 ∨ bytes.length > 3584 → ∃ t, operate (.install bytes) s = .next t ∧
      replyOf (.install bytes) s t = .install false ∧ t = s)

/-- `70_reset_and_hazards.md` R206, which the spec marks as derived from R200, R204, R183 and R186: the launch state, after
Reset, one accepted Install and any key events and Ticks. -/
def Obligations.LaunchState : Prop :=
  ∀ (s t : State) (now0 : Nat) (bytes : List Byte) (ops : List Operation),
    1 ≤ bytes.length → bytes.length ≤ 3584 → (∀ op ∈ ops, betweenInstallAndStep op = true) →
    operateAll (.reset now0 :: .install bytes :: ops) s = .next t →
    t.pc = 0x200 ∧ (∀ r, t.reg r = 0) ∧ t.i = 0 ∧ t.sp = 0 ∧ (∀ j : Fin 16, t.stack[j] = 0) ∧ t.dt = 0 ∧ t.st = 0 ∧
    (∀ q : Fin 32, t.disp[q] = 0) ∧ t.loaded = true ∧ t.faultCause = .none ∧
    t.key = keysAfter ops (Vector.replicate 16 false) ∧
    (∀ a, a < 0x50 → t.read a = Config.fontTable.getD a 0) ∧
    (∀ j, j < bytes.length → t.read (0x200 + j) = bytes.getD j 0) ∧
    (∀ a, 0x50 ≤ a → a < 0x200 → t.read a = 0) ∧
    (∀ a, 0x200 + bytes.length ≤ a → a < 4096 → t.read a = 0)
end

