-- ==== Sys2Proof/Laws/Decode.lean ====
section
/-! SUPPORT. Laws/Decode.lean: what each field of an encoded word is, for the formats of `30_encoding.md` R61, and how a
word is made of its fields again. -/

namespace Sys2Proof

/-- A 4-bit index is the image of its number. -/
theorem nibble_eq_ofNat_iff (r : Nibble) (k : Nat) (hk : k < 16) : r = BitVec.ofNat 4 k ↔ r.toNat = k := by
  constructor
  · rintro rfl; simp; omega
  · intro h; apply BitVec.eq_of_toNat_eq; simp; omega

@[simp] theorem opGroup_encodeNNN (g : Nibble) (nnn : Addr12) : opGroup (encodeNNN g nnn) = g := by
  ext k hk; interval_cases k <;> simp [opGroup, encodeNNN]
@[simp] theorem opNNN_encodeNNN (g : Nibble) (nnn : Addr12) : opNNN (encodeNNN g nnn) = nnn := by
  ext k hk; interval_cases k <;> simp [opNNN, encodeNNN]
@[simp] theorem opGroup_encodeXNN (g x : Nibble) (nn : Byte) : opGroup (encodeXNN g x nn) = g := by
  ext k hk; interval_cases k <;> simp [opGroup, encodeXNN]
@[simp] theorem opX_encodeXNN (g x : Nibble) (nn : Byte) : opX (encodeXNN g x nn) = x := by
  ext k hk; interval_cases k <;> simp [opX, encodeXNN]
@[simp] theorem opNN_encodeXNN (g x : Nibble) (nn : Byte) : opNN (encodeXNN g x nn) = nn := by
  ext k hk; interval_cases k <;> simp [opNN, encodeXNN]
@[simp] theorem opGroup_encodeXYN (g x y n : Nibble) : opGroup (encodeXYN g x y n) = g := by
  ext k hk; interval_cases k <;> simp [opGroup, encodeXYN]
@[simp] theorem opX_encodeXYN (g x y n : Nibble) : opX (encodeXYN g x y n) = x := by
  ext k hk; interval_cases k <;> simp [opX, encodeXYN]
@[simp] theorem opY_encodeXYN (g x y n : Nibble) : opY (encodeXYN g x y n) = y := by
  ext k hk; interval_cases k <;> simp [opY, encodeXYN]
@[simp] theorem opN_encodeXYN (g x y n : Nibble) : opN (encodeXYN g x y n) = n := by
  ext k hk; interval_cases k <;> simp [opN, encodeXYN]

theorem encodeNNN_fields (w : Word) : encodeNNN (opGroup w) (opNNN w) = w := by
  ext k hk; interval_cases k <;> simp [encodeNNN, opGroup, opNNN]
theorem encodeXNN_fields (w : Word) : encodeXNN (opGroup w) (opX w) (opNN w) = w := by
  ext k hk; interval_cases k <;> simp [encodeXNN, opGroup, opX, opNN]
theorem encodeXYN_fields (w : Word) : encodeXYN (opGroup w) (opX w) (opY w) (opN w) = w := by
  ext k hk; interval_cases k <;> simp [encodeXYN, opGroup, opX, opY, opN]

/-! ### Fields of a masked word, for the masks of R63 -/

@[simp] theorem opGroup_and (w m : Word) : opGroup (w &&& m) = opGroup w &&& opGroup m := by
  ext k hk; simp [opGroup]
@[simp] theorem opX_and (w m : Word) : opX (w &&& m) = opX w &&& opX m := by
  ext k hk; simp [opX]
@[simp] theorem opY_and (w m : Word) : opY (w &&& m) = opY w &&& opY m := by
  ext k hk; simp [opY]
@[simp] theorem opN_and (w m : Word) : opN (w &&& m) = opN w &&& opN m := by
  ext k hk; simp [opN]
@[simp] theorem opNN_and (w m : Word) : opNN (w &&& m) = opNN w &&& opNN m := by
  ext k hk; simp [opNN]

/-- Two words with the same four nibbles are the same word. -/
theorem word_eq_of_fields (v w : Word) (hg : opGroup v = opGroup w) (hx : opX v = opX w) (hy : opY v = opY w)
    (hn : opN v = opN w) : v = w := by
  rw [← encodeXYN_fields v, ← encodeXYN_fields w, hg, hx, hy, hn]

/-- Two words with the same group, `X` and low byte are the same word. -/
theorem word_eq_of_byte_fields (v w : Word) (hg : opGroup v = opGroup w) (hx : opX v = opX w)
    (hn : opNN v = opNN w) : v = w := by
  rw [← encodeXNN_fields v, ← encodeXNN_fields w, hg, hx, hn]

@[simp] theorem highByte_wordOfBytes (hi lo : Byte) : highByte (wordOfBytes hi lo) = hi := by
  ext k hk; interval_cases k <;> simp [highByte, wordOfBytes]
@[simp] theorem lowByte_wordOfBytes (hi lo : Byte) : lowByte (wordOfBytes hi lo) = lo := by
  ext k hk; interval_cases k <;> simp [lowByte, wordOfBytes]
@[simp] theorem wordOfBytes_bytes (w : Word) : wordOfBytes (highByte w) (lowByte w) = w := by
  ext k hk; interval_cases k <;> simp [highByte, lowByte, wordOfBytes]

end Sys2Proof
end

