-- ==== Sys2Proof/Laws/State.lean ====
section
/-! SUPPORT. Laws/State.lean: one lemma per field and update of State, so that no later proof unfolds a record update,
and the same for the two views `reg` (a register) and `read` (a byte of memory). -/

namespace Sys2Proof.Machine

/-! ### `State.setReg` -/

@[simp] theorem State.setReg_v (s : State) (x : Nibble) (b : Byte) : (s.setReg x b).v = s.v.set x.toNat b x.isLt := rfl
@[simp] theorem State.setReg_pc (s : State) (x : Nibble) (b : Byte) : (s.setReg x b).pc = s.pc := rfl
@[simp] theorem State.setReg_i (s : State) (x : Nibble) (b : Byte) : (s.setReg x b).i = s.i := rfl
@[simp] theorem State.setReg_sp (s : State) (x : Nibble) (b : Byte) : (s.setReg x b).sp = s.sp := rfl
@[simp] theorem State.setReg_stack (s : State) (x : Nibble) (b : Byte) : (s.setReg x b).stack = s.stack := rfl
@[simp] theorem State.setReg_dt (s : State) (x : Nibble) (b : Byte) : (s.setReg x b).dt = s.dt := rfl
@[simp] theorem State.setReg_st (s : State) (x : Nibble) (b : Byte) : (s.setReg x b).st = s.st := rfl
@[simp] theorem State.setReg_key (s : State) (x : Nibble) (b : Byte) : (s.setReg x b).key = s.key := rfl
@[simp] theorem State.setReg_disp (s : State) (x : Nibble) (b : Byte) : (s.setReg x b).disp = s.disp := rfl
@[simp] theorem State.setReg_loaded (s : State) (x : Nibble) (b : Byte) : (s.setReg x b).loaded = s.loaded := rfl
@[simp] theorem State.setReg_faultCause (s : State) (x : Nibble) (b : Byte) : (s.setReg x b).faultCause = s.faultCause := rfl
@[simp] theorem State.setReg_timerRef (s : State) (x : Nibble) (b : Byte) : (s.setReg x b).timerRef = s.timerRef := rfl
@[simp] theorem State.setReg_mem (s : State) (x : Nibble) (b : Byte) : (s.setReg x b).mem = s.mem := rfl
@[simp] theorem State.setReg_result (s : State) (x : Nibble) (b : Byte) : (s.setReg x b).result = s.result := rfl
@[simp] theorem State.setReg_draws (s : State) (x : Nibble) (b : Byte) : (s.setReg x b).draws = s.draws := rfl
@[simp] theorem State.setReg_read (s : State) (x : Nibble) (b : Byte) (adr : Nat) : (s.setReg x b).read adr = s.read adr := rfl

/-! ### `State.write` -/

@[simp] theorem State.write_v (s : State) (a : Nat) (b : Byte) : (s.write a b).v = s.v := rfl
@[simp] theorem State.write_pc (s : State) (a : Nat) (b : Byte) : (s.write a b).pc = s.pc := rfl
@[simp] theorem State.write_i (s : State) (a : Nat) (b : Byte) : (s.write a b).i = s.i := rfl
@[simp] theorem State.write_sp (s : State) (a : Nat) (b : Byte) : (s.write a b).sp = s.sp := rfl
@[simp] theorem State.write_stack (s : State) (a : Nat) (b : Byte) : (s.write a b).stack = s.stack := rfl
@[simp] theorem State.write_dt (s : State) (a : Nat) (b : Byte) : (s.write a b).dt = s.dt := rfl
@[simp] theorem State.write_st (s : State) (a : Nat) (b : Byte) : (s.write a b).st = s.st := rfl
@[simp] theorem State.write_key (s : State) (a : Nat) (b : Byte) : (s.write a b).key = s.key := rfl
@[simp] theorem State.write_disp (s : State) (a : Nat) (b : Byte) : (s.write a b).disp = s.disp := rfl
@[simp] theorem State.write_loaded (s : State) (a : Nat) (b : Byte) : (s.write a b).loaded = s.loaded := rfl
@[simp] theorem State.write_faultCause (s : State) (a : Nat) (b : Byte) : (s.write a b).faultCause = s.faultCause := rfl
@[simp] theorem State.write_timerRef (s : State) (a : Nat) (b : Byte) : (s.write a b).timerRef = s.timerRef := rfl
@[simp] theorem State.write_mem (s : State) (a : Nat) (b : Byte) : (s.write a b).mem = Memory.write s.mem a b := rfl
@[simp] theorem State.write_result (s : State) (a : Nat) (b : Byte) : (s.write a b).result = s.result := rfl
@[simp] theorem State.write_draws (s : State) (a : Nat) (b : Byte) : (s.write a b).draws = s.draws := rfl
@[simp] theorem State.write_reg (s : State) (a : Nat) (b : Byte) (r : Nibble) : (s.write a b).reg r = s.reg r := rfl

/-! ### `State.setIndex` -/

@[simp] theorem State.setIndex_v (s : State) (w : Word) : (s.setIndex w).v = s.v := rfl
@[simp] theorem State.setIndex_pc (s : State) (w : Word) : (s.setIndex w).pc = s.pc := rfl
@[simp] theorem State.setIndex_i (s : State) (w : Word) : (s.setIndex w).i = w := rfl
@[simp] theorem State.setIndex_sp (s : State) (w : Word) : (s.setIndex w).sp = s.sp := rfl
@[simp] theorem State.setIndex_stack (s : State) (w : Word) : (s.setIndex w).stack = s.stack := rfl
@[simp] theorem State.setIndex_dt (s : State) (w : Word) : (s.setIndex w).dt = s.dt := rfl
@[simp] theorem State.setIndex_st (s : State) (w : Word) : (s.setIndex w).st = s.st := rfl
@[simp] theorem State.setIndex_key (s : State) (w : Word) : (s.setIndex w).key = s.key := rfl
@[simp] theorem State.setIndex_disp (s : State) (w : Word) : (s.setIndex w).disp = s.disp := rfl
@[simp] theorem State.setIndex_loaded (s : State) (w : Word) : (s.setIndex w).loaded = s.loaded := rfl
@[simp] theorem State.setIndex_faultCause (s : State) (w : Word) : (s.setIndex w).faultCause = s.faultCause := rfl
@[simp] theorem State.setIndex_timerRef (s : State) (w : Word) : (s.setIndex w).timerRef = s.timerRef := rfl
@[simp] theorem State.setIndex_mem (s : State) (w : Word) : (s.setIndex w).mem = s.mem := rfl
@[simp] theorem State.setIndex_result (s : State) (w : Word) : (s.setIndex w).result = s.result := rfl
@[simp] theorem State.setIndex_draws (s : State) (w : Word) : (s.setIndex w).draws = s.draws := rfl
@[simp] theorem State.setIndex_reg (s : State) (w : Word) (r : Nibble) : (s.setIndex w).reg r = s.reg r := rfl
@[simp] theorem State.setIndex_read (s : State) (w : Word) (adr : Nat) : (s.setIndex w).read adr = s.read adr := rfl

/-! ### `State.setDelay` -/

@[simp] theorem State.setDelay_v (s : State) (b : Byte) : (s.setDelay b).v = s.v := rfl
@[simp] theorem State.setDelay_pc (s : State) (b : Byte) : (s.setDelay b).pc = s.pc := rfl
@[simp] theorem State.setDelay_i (s : State) (b : Byte) : (s.setDelay b).i = s.i := rfl
@[simp] theorem State.setDelay_sp (s : State) (b : Byte) : (s.setDelay b).sp = s.sp := rfl
@[simp] theorem State.setDelay_stack (s : State) (b : Byte) : (s.setDelay b).stack = s.stack := rfl
@[simp] theorem State.setDelay_dt (s : State) (b : Byte) : (s.setDelay b).dt = b := rfl
@[simp] theorem State.setDelay_st (s : State) (b : Byte) : (s.setDelay b).st = s.st := rfl
@[simp] theorem State.setDelay_key (s : State) (b : Byte) : (s.setDelay b).key = s.key := rfl
@[simp] theorem State.setDelay_disp (s : State) (b : Byte) : (s.setDelay b).disp = s.disp := rfl
@[simp] theorem State.setDelay_loaded (s : State) (b : Byte) : (s.setDelay b).loaded = s.loaded := rfl
@[simp] theorem State.setDelay_faultCause (s : State) (b : Byte) : (s.setDelay b).faultCause = s.faultCause := rfl
@[simp] theorem State.setDelay_timerRef (s : State) (b : Byte) : (s.setDelay b).timerRef = s.timerRef := rfl
@[simp] theorem State.setDelay_mem (s : State) (b : Byte) : (s.setDelay b).mem = s.mem := rfl
@[simp] theorem State.setDelay_result (s : State) (b : Byte) : (s.setDelay b).result = s.result := rfl
@[simp] theorem State.setDelay_draws (s : State) (b : Byte) : (s.setDelay b).draws = s.draws := rfl
@[simp] theorem State.setDelay_reg (s : State) (b : Byte) (r : Nibble) : (s.setDelay b).reg r = s.reg r := rfl
@[simp] theorem State.setDelay_read (s : State) (b : Byte) (adr : Nat) : (s.setDelay b).read adr = s.read adr := rfl

/-! ### `State.setSound` -/

@[simp] theorem State.setSound_v (s : State) (b : Byte) : (s.setSound b).v = s.v := rfl
@[simp] theorem State.setSound_pc (s : State) (b : Byte) : (s.setSound b).pc = s.pc := rfl
@[simp] theorem State.setSound_i (s : State) (b : Byte) : (s.setSound b).i = s.i := rfl
@[simp] theorem State.setSound_sp (s : State) (b : Byte) : (s.setSound b).sp = s.sp := rfl
@[simp] theorem State.setSound_stack (s : State) (b : Byte) : (s.setSound b).stack = s.stack := rfl
@[simp] theorem State.setSound_dt (s : State) (b : Byte) : (s.setSound b).dt = s.dt := rfl
@[simp] theorem State.setSound_st (s : State) (b : Byte) : (s.setSound b).st = b := rfl
@[simp] theorem State.setSound_key (s : State) (b : Byte) : (s.setSound b).key = s.key := rfl
@[simp] theorem State.setSound_disp (s : State) (b : Byte) : (s.setSound b).disp = s.disp := rfl
@[simp] theorem State.setSound_loaded (s : State) (b : Byte) : (s.setSound b).loaded = s.loaded := rfl
@[simp] theorem State.setSound_faultCause (s : State) (b : Byte) : (s.setSound b).faultCause = s.faultCause := rfl
@[simp] theorem State.setSound_timerRef (s : State) (b : Byte) : (s.setSound b).timerRef = s.timerRef := rfl
@[simp] theorem State.setSound_mem (s : State) (b : Byte) : (s.setSound b).mem = s.mem := rfl
@[simp] theorem State.setSound_result (s : State) (b : Byte) : (s.setSound b).result = s.result := rfl
@[simp] theorem State.setSound_draws (s : State) (b : Byte) : (s.setSound b).draws = s.draws := rfl
@[simp] theorem State.setSound_reg (s : State) (b : Byte) (r : Nibble) : (s.setSound b).reg r = s.reg r := rfl
@[simp] theorem State.setSound_read (s : State) (b : Byte) (adr : Nat) : (s.setSound b).read adr = s.read adr := rfl

/-! ### `State.countDraw` -/

@[simp] theorem State.countDraw_v (s : State) : (s.countDraw).v = s.v := rfl
@[simp] theorem State.countDraw_pc (s : State) : (s.countDraw).pc = s.pc := rfl
@[simp] theorem State.countDraw_i (s : State) : (s.countDraw).i = s.i := rfl
@[simp] theorem State.countDraw_sp (s : State) : (s.countDraw).sp = s.sp := rfl
@[simp] theorem State.countDraw_stack (s : State) : (s.countDraw).stack = s.stack := rfl
@[simp] theorem State.countDraw_dt (s : State) : (s.countDraw).dt = s.dt := rfl
@[simp] theorem State.countDraw_st (s : State) : (s.countDraw).st = s.st := rfl
@[simp] theorem State.countDraw_key (s : State) : (s.countDraw).key = s.key := rfl
@[simp] theorem State.countDraw_disp (s : State) : (s.countDraw).disp = s.disp := rfl
@[simp] theorem State.countDraw_loaded (s : State) : (s.countDraw).loaded = s.loaded := rfl
@[simp] theorem State.countDraw_faultCause (s : State) : (s.countDraw).faultCause = s.faultCause := rfl
@[simp] theorem State.countDraw_timerRef (s : State) : (s.countDraw).timerRef = s.timerRef := rfl
@[simp] theorem State.countDraw_mem (s : State) : (s.countDraw).mem = s.mem := rfl
@[simp] theorem State.countDraw_result (s : State) : (s.countDraw).result = s.result := rfl
@[simp] theorem State.countDraw_draws (s : State) : (s.countDraw).draws = s.draws + 1 := rfl
@[simp] theorem State.countDraw_reg (s : State) (r : Nibble) : (s.countDraw).reg r = s.reg r := rfl
@[simp] theorem State.countDraw_read (s : State) (adr : Nat) : (s.countDraw).read adr = s.read adr := rfl

/-! ### `State.setDisplay` -/

@[simp] theorem State.setDisplay_v (s : State) (d : Vector PixelRow 32) : (s.setDisplay d).v = s.v := rfl
@[simp] theorem State.setDisplay_pc (s : State) (d : Vector PixelRow 32) : (s.setDisplay d).pc = s.pc := rfl
@[simp] theorem State.setDisplay_i (s : State) (d : Vector PixelRow 32) : (s.setDisplay d).i = s.i := rfl
@[simp] theorem State.setDisplay_sp (s : State) (d : Vector PixelRow 32) : (s.setDisplay d).sp = s.sp := rfl
@[simp] theorem State.setDisplay_stack (s : State) (d : Vector PixelRow 32) : (s.setDisplay d).stack = s.stack := rfl
@[simp] theorem State.setDisplay_dt (s : State) (d : Vector PixelRow 32) : (s.setDisplay d).dt = s.dt := rfl
@[simp] theorem State.setDisplay_st (s : State) (d : Vector PixelRow 32) : (s.setDisplay d).st = s.st := rfl
@[simp] theorem State.setDisplay_key (s : State) (d : Vector PixelRow 32) : (s.setDisplay d).key = s.key := rfl
@[simp] theorem State.setDisplay_disp (s : State) (d : Vector PixelRow 32) : (s.setDisplay d).disp = d := rfl
@[simp] theorem State.setDisplay_loaded (s : State) (d : Vector PixelRow 32) : (s.setDisplay d).loaded = s.loaded := rfl
@[simp] theorem State.setDisplay_faultCause (s : State) (d : Vector PixelRow 32) : (s.setDisplay d).faultCause = s.faultCause := rfl
@[simp] theorem State.setDisplay_timerRef (s : State) (d : Vector PixelRow 32) : (s.setDisplay d).timerRef = s.timerRef := rfl
@[simp] theorem State.setDisplay_mem (s : State) (d : Vector PixelRow 32) : (s.setDisplay d).mem = s.mem := rfl
@[simp] theorem State.setDisplay_result (s : State) (d : Vector PixelRow 32) : (s.setDisplay d).result = s.result := rfl
@[simp] theorem State.setDisplay_draws (s : State) (d : Vector PixelRow 32) : (s.setDisplay d).draws = s.draws := rfl
@[simp] theorem State.setDisplay_reg (s : State) (d : Vector PixelRow 32) (r : Nibble) : (s.setDisplay d).reg r = s.reg r := rfl
@[simp] theorem State.setDisplay_read (s : State) (d : Vector PixelRow 32) (adr : Nat) : (s.setDisplay d).read adr = s.read adr := rfl

/-! ### `State.push` -/

@[simp] theorem State.push_v (s : State) (w : Word) : (s.push w).v = s.v := rfl
@[simp] theorem State.push_pc (s : State) (w : Word) : (s.push w).pc = s.pc := rfl
@[simp] theorem State.push_i (s : State) (w : Word) : (s.push w).i = s.i := rfl
@[simp] theorem State.push_dt (s : State) (w : Word) : (s.push w).dt = s.dt := rfl
@[simp] theorem State.push_st (s : State) (w : Word) : (s.push w).st = s.st := rfl
@[simp] theorem State.push_key (s : State) (w : Word) : (s.push w).key = s.key := rfl
@[simp] theorem State.push_disp (s : State) (w : Word) : (s.push w).disp = s.disp := rfl
@[simp] theorem State.push_loaded (s : State) (w : Word) : (s.push w).loaded = s.loaded := rfl
@[simp] theorem State.push_faultCause (s : State) (w : Word) : (s.push w).faultCause = s.faultCause := rfl
@[simp] theorem State.push_timerRef (s : State) (w : Word) : (s.push w).timerRef = s.timerRef := rfl
@[simp] theorem State.push_mem (s : State) (w : Word) : (s.push w).mem = s.mem := rfl
@[simp] theorem State.push_result (s : State) (w : Word) : (s.push w).result = s.result := rfl
@[simp] theorem State.push_draws (s : State) (w : Word) : (s.push w).draws = s.draws := rfl
@[simp] theorem State.push_reg (s : State) (w : Word) (r : Nibble) : (s.push w).reg r = s.reg r := rfl
@[simp] theorem State.push_read (s : State) (w : Word) (adr : Nat) : (s.push w).read adr = s.read adr := rfl

/-! ### `State.pop` -/

@[simp] theorem State.pop_v (s : State) : (s.pop).v = s.v := rfl
@[simp] theorem State.pop_pc (s : State) : (s.pop).pc = s.pc := rfl
@[simp] theorem State.pop_i (s : State) : (s.pop).i = s.i := rfl
@[simp] theorem State.pop_stack (s : State) : (s.pop).stack = s.stack := rfl
@[simp] theorem State.pop_dt (s : State) : (s.pop).dt = s.dt := rfl
@[simp] theorem State.pop_st (s : State) : (s.pop).st = s.st := rfl
@[simp] theorem State.pop_key (s : State) : (s.pop).key = s.key := rfl
@[simp] theorem State.pop_disp (s : State) : (s.pop).disp = s.disp := rfl
@[simp] theorem State.pop_loaded (s : State) : (s.pop).loaded = s.loaded := rfl
@[simp] theorem State.pop_faultCause (s : State) : (s.pop).faultCause = s.faultCause := rfl
@[simp] theorem State.pop_timerRef (s : State) : (s.pop).timerRef = s.timerRef := rfl
@[simp] theorem State.pop_mem (s : State) : (s.pop).mem = s.mem := rfl
@[simp] theorem State.pop_result (s : State) : (s.pop).result = s.result := rfl
@[simp] theorem State.pop_draws (s : State) : (s.pop).draws = s.draws := rfl
@[simp] theorem State.pop_reg (s : State) (r : Nibble) : (s.pop).reg r = s.reg r := rfl
@[simp] theorem State.pop_read (s : State) (adr : Nat) : (s.pop).read adr = s.read adr := rfl

/-! ### `State.complete` -/

@[simp] theorem State.complete_v (s : State) (a : Advisory) : (s.complete a).v = s.v := rfl
@[simp] theorem State.complete_pc (s : State) (a : Advisory) : (s.complete a).pc = s.pc := rfl
@[simp] theorem State.complete_i (s : State) (a : Advisory) : (s.complete a).i = s.i := rfl
@[simp] theorem State.complete_sp (s : State) (a : Advisory) : (s.complete a).sp = s.sp := rfl
@[simp] theorem State.complete_stack (s : State) (a : Advisory) : (s.complete a).stack = s.stack := rfl
@[simp] theorem State.complete_dt (s : State) (a : Advisory) : (s.complete a).dt = s.dt := rfl
@[simp] theorem State.complete_st (s : State) (a : Advisory) : (s.complete a).st = s.st := rfl
@[simp] theorem State.complete_key (s : State) (a : Advisory) : (s.complete a).key = s.key := rfl
@[simp] theorem State.complete_disp (s : State) (a : Advisory) : (s.complete a).disp = s.disp := rfl
@[simp] theorem State.complete_loaded (s : State) (a : Advisory) : (s.complete a).loaded = s.loaded := rfl
@[simp] theorem State.complete_faultCause (s : State) (a : Advisory) : (s.complete a).faultCause = s.faultCause := rfl
@[simp] theorem State.complete_timerRef (s : State) (a : Advisory) : (s.complete a).timerRef = s.timerRef := rfl
@[simp] theorem State.complete_mem (s : State) (a : Advisory) : (s.complete a).mem = s.mem := rfl
@[simp] theorem State.complete_result (s : State) (a : Advisory) : (s.complete a).result = ⟨.ok, .none, a⟩ := rfl
@[simp] theorem State.complete_draws (s : State) (a : Advisory) : (s.complete a).draws = s.draws := rfl
@[simp] theorem State.complete_reg (s : State) (a : Advisory) (r : Nibble) : (s.complete a).reg r = s.reg r := rfl
@[simp] theorem State.complete_read (s : State) (a : Advisory) (adr : Nat) : (s.complete a).read adr = s.read adr := rfl

/-! ### `State.jumpTo` -/

@[simp] theorem State.jumpTo_v (s : State) (w : Word) : (s.jumpTo w).v = s.v := rfl
@[simp] theorem State.jumpTo_pc (s : State) (w : Word) : (s.jumpTo w).pc = w := rfl
@[simp] theorem State.jumpTo_i (s : State) (w : Word) : (s.jumpTo w).i = s.i := rfl
@[simp] theorem State.jumpTo_sp (s : State) (w : Word) : (s.jumpTo w).sp = s.sp := rfl
@[simp] theorem State.jumpTo_stack (s : State) (w : Word) : (s.jumpTo w).stack = s.stack := rfl
@[simp] theorem State.jumpTo_dt (s : State) (w : Word) : (s.jumpTo w).dt = s.dt := rfl
@[simp] theorem State.jumpTo_st (s : State) (w : Word) : (s.jumpTo w).st = s.st := rfl
@[simp] theorem State.jumpTo_key (s : State) (w : Word) : (s.jumpTo w).key = s.key := rfl
@[simp] theorem State.jumpTo_disp (s : State) (w : Word) : (s.jumpTo w).disp = s.disp := rfl
@[simp] theorem State.jumpTo_loaded (s : State) (w : Word) : (s.jumpTo w).loaded = s.loaded := rfl
@[simp] theorem State.jumpTo_faultCause (s : State) (w : Word) : (s.jumpTo w).faultCause = s.faultCause := rfl
@[simp] theorem State.jumpTo_timerRef (s : State) (w : Word) : (s.jumpTo w).timerRef = s.timerRef := rfl
@[simp] theorem State.jumpTo_mem (s : State) (w : Word) : (s.jumpTo w).mem = s.mem := rfl
@[simp] theorem State.jumpTo_result (s : State) (w : Word) : (s.jumpTo w).result = ⟨.ok, .none, .none⟩ := rfl
@[simp] theorem State.jumpTo_draws (s : State) (w : Word) : (s.jumpTo w).draws = s.draws := rfl
@[simp] theorem State.jumpTo_reg (s : State) (w : Word) (r : Nibble) : (s.jumpTo w).reg r = s.reg r := rfl
@[simp] theorem State.jumpTo_read (s : State) (w : Word) (adr : Nat) : (s.jumpTo w).read adr = s.read adr := rfl

/-! ### `State.nextAdvised` -/

@[simp] theorem State.nextAdvised_v (s : State) (a : Advisory) : (s.nextAdvised a).v = s.v := rfl
@[simp] theorem State.nextAdvised_pc (s : State) (a : Advisory) : (s.nextAdvised a).pc = s.pc + 2 := rfl
@[simp] theorem State.nextAdvised_i (s : State) (a : Advisory) : (s.nextAdvised a).i = s.i := rfl
@[simp] theorem State.nextAdvised_sp (s : State) (a : Advisory) : (s.nextAdvised a).sp = s.sp := rfl
@[simp] theorem State.nextAdvised_stack (s : State) (a : Advisory) : (s.nextAdvised a).stack = s.stack := rfl
@[simp] theorem State.nextAdvised_dt (s : State) (a : Advisory) : (s.nextAdvised a).dt = s.dt := rfl
@[simp] theorem State.nextAdvised_st (s : State) (a : Advisory) : (s.nextAdvised a).st = s.st := rfl
@[simp] theorem State.nextAdvised_key (s : State) (a : Advisory) : (s.nextAdvised a).key = s.key := rfl
@[simp] theorem State.nextAdvised_disp (s : State) (a : Advisory) : (s.nextAdvised a).disp = s.disp := rfl
@[simp] theorem State.nextAdvised_loaded (s : State) (a : Advisory) : (s.nextAdvised a).loaded = s.loaded := rfl
@[simp] theorem State.nextAdvised_faultCause (s : State) (a : Advisory) : (s.nextAdvised a).faultCause = s.faultCause := rfl
@[simp] theorem State.nextAdvised_timerRef (s : State) (a : Advisory) : (s.nextAdvised a).timerRef = s.timerRef := rfl
@[simp] theorem State.nextAdvised_mem (s : State) (a : Advisory) : (s.nextAdvised a).mem = s.mem := rfl
@[simp] theorem State.nextAdvised_result (s : State) (a : Advisory) : (s.nextAdvised a).result = ⟨.ok, .none, a⟩ := rfl
@[simp] theorem State.nextAdvised_draws (s : State) (a : Advisory) : (s.nextAdvised a).draws = s.draws := rfl
@[simp] theorem State.nextAdvised_reg (s : State) (a : Advisory) (r : Nibble) : (s.nextAdvised a).reg r = s.reg r := rfl
@[simp] theorem State.nextAdvised_read (s : State) (a : Advisory) (adr : Nat) : (s.nextAdvised a).read adr = s.read adr := rfl

/-! ### `State.nextInstr` -/

@[simp] theorem State.nextInstr_v (s : State) : (s.nextInstr).v = s.v := rfl
@[simp] theorem State.nextInstr_pc (s : State) : (s.nextInstr).pc = s.pc + 2 := rfl
@[simp] theorem State.nextInstr_i (s : State) : (s.nextInstr).i = s.i := rfl
@[simp] theorem State.nextInstr_sp (s : State) : (s.nextInstr).sp = s.sp := rfl
@[simp] theorem State.nextInstr_stack (s : State) : (s.nextInstr).stack = s.stack := rfl
@[simp] theorem State.nextInstr_dt (s : State) : (s.nextInstr).dt = s.dt := rfl
@[simp] theorem State.nextInstr_st (s : State) : (s.nextInstr).st = s.st := rfl
@[simp] theorem State.nextInstr_key (s : State) : (s.nextInstr).key = s.key := rfl
@[simp] theorem State.nextInstr_disp (s : State) : (s.nextInstr).disp = s.disp := rfl
@[simp] theorem State.nextInstr_loaded (s : State) : (s.nextInstr).loaded = s.loaded := rfl
@[simp] theorem State.nextInstr_faultCause (s : State) : (s.nextInstr).faultCause = s.faultCause := rfl
@[simp] theorem State.nextInstr_timerRef (s : State) : (s.nextInstr).timerRef = s.timerRef := rfl
@[simp] theorem State.nextInstr_mem (s : State) : (s.nextInstr).mem = s.mem := rfl
@[simp] theorem State.nextInstr_result (s : State) : (s.nextInstr).result = ⟨.ok, .none, .none⟩ := rfl
@[simp] theorem State.nextInstr_draws (s : State) : (s.nextInstr).draws = s.draws := rfl
@[simp] theorem State.nextInstr_reg (s : State) (r : Nibble) : (s.nextInstr).reg r = s.reg r := rfl
@[simp] theorem State.nextInstr_read (s : State) (adr : Nat) : (s.nextInstr).read adr = s.read adr := rfl

/-! ### `State.skipIfAdvised` -/

@[simp] theorem State.skipIfAdvised_v (s : State) (c : Bool) (a : Advisory) : (s.skipIfAdvised c a).v = s.v := rfl
@[simp] theorem State.skipIfAdvised_pc (s : State) (c : Bool) (a : Advisory) : (s.skipIfAdvised c a).pc = if c then s.pc + 4 else s.pc + 2 := rfl
@[simp] theorem State.skipIfAdvised_i (s : State) (c : Bool) (a : Advisory) : (s.skipIfAdvised c a).i = s.i := rfl
@[simp] theorem State.skipIfAdvised_sp (s : State) (c : Bool) (a : Advisory) : (s.skipIfAdvised c a).sp = s.sp := rfl
@[simp] theorem State.skipIfAdvised_stack (s : State) (c : Bool) (a : Advisory) : (s.skipIfAdvised c a).stack = s.stack := rfl
@[simp] theorem State.skipIfAdvised_dt (s : State) (c : Bool) (a : Advisory) : (s.skipIfAdvised c a).dt = s.dt := rfl
@[simp] theorem State.skipIfAdvised_st (s : State) (c : Bool) (a : Advisory) : (s.skipIfAdvised c a).st = s.st := rfl
@[simp] theorem State.skipIfAdvised_key (s : State) (c : Bool) (a : Advisory) : (s.skipIfAdvised c a).key = s.key := rfl
@[simp] theorem State.skipIfAdvised_disp (s : State) (c : Bool) (a : Advisory) : (s.skipIfAdvised c a).disp = s.disp := rfl
@[simp] theorem State.skipIfAdvised_loaded (s : State) (c : Bool) (a : Advisory) : (s.skipIfAdvised c a).loaded = s.loaded := rfl
@[simp] theorem State.skipIfAdvised_faultCause (s : State) (c : Bool) (a : Advisory) : (s.skipIfAdvised c a).faultCause = s.faultCause := rfl
@[simp] theorem State.skipIfAdvised_timerRef (s : State) (c : Bool) (a : Advisory) : (s.skipIfAdvised c a).timerRef = s.timerRef := rfl
@[simp] theorem State.skipIfAdvised_mem (s : State) (c : Bool) (a : Advisory) : (s.skipIfAdvised c a).mem = s.mem := rfl
@[simp] theorem State.skipIfAdvised_result (s : State) (c : Bool) (a : Advisory) : (s.skipIfAdvised c a).result = ⟨.ok, .none, a⟩ := rfl
@[simp] theorem State.skipIfAdvised_draws (s : State) (c : Bool) (a : Advisory) : (s.skipIfAdvised c a).draws = s.draws := rfl
@[simp] theorem State.skipIfAdvised_reg (s : State) (c : Bool) (a : Advisory) (r : Nibble) : (s.skipIfAdvised c a).reg r = s.reg r := rfl
@[simp] theorem State.skipIfAdvised_read (s : State) (c : Bool) (a : Advisory) (adr : Nat) : (s.skipIfAdvised c a).read adr = s.read adr := rfl

/-! ### `State.skipIf` -/

@[simp] theorem State.skipIf_v (s : State) (c : Bool) : (s.skipIf c).v = s.v := rfl
@[simp] theorem State.skipIf_pc (s : State) (c : Bool) : (s.skipIf c).pc = if c then s.pc + 4 else s.pc + 2 := rfl
@[simp] theorem State.skipIf_i (s : State) (c : Bool) : (s.skipIf c).i = s.i := rfl
@[simp] theorem State.skipIf_sp (s : State) (c : Bool) : (s.skipIf c).sp = s.sp := rfl
@[simp] theorem State.skipIf_stack (s : State) (c : Bool) : (s.skipIf c).stack = s.stack := rfl
@[simp] theorem State.skipIf_dt (s : State) (c : Bool) : (s.skipIf c).dt = s.dt := rfl
@[simp] theorem State.skipIf_st (s : State) (c : Bool) : (s.skipIf c).st = s.st := rfl
@[simp] theorem State.skipIf_key (s : State) (c : Bool) : (s.skipIf c).key = s.key := rfl
@[simp] theorem State.skipIf_disp (s : State) (c : Bool) : (s.skipIf c).disp = s.disp := rfl
@[simp] theorem State.skipIf_loaded (s : State) (c : Bool) : (s.skipIf c).loaded = s.loaded := rfl
@[simp] theorem State.skipIf_faultCause (s : State) (c : Bool) : (s.skipIf c).faultCause = s.faultCause := rfl
@[simp] theorem State.skipIf_timerRef (s : State) (c : Bool) : (s.skipIf c).timerRef = s.timerRef := rfl
@[simp] theorem State.skipIf_mem (s : State) (c : Bool) : (s.skipIf c).mem = s.mem := rfl
@[simp] theorem State.skipIf_result (s : State) (c : Bool) : (s.skipIf c).result = ⟨.ok, .none, .none⟩ := rfl
@[simp] theorem State.skipIf_draws (s : State) (c : Bool) : (s.skipIf c).draws = s.draws := rfl
@[simp] theorem State.skipIf_reg (s : State) (c : Bool) (r : Nibble) : (s.skipIf c).reg r = s.reg r := rfl
@[simp] theorem State.skipIf_read (s : State) (c : Bool) (adr : Nat) : (s.skipIf c).read adr = s.read adr := rfl

/-! ### `State.wait` -/

@[simp] theorem State.wait_v (s : State) : (s.wait).v = s.v := rfl
@[simp] theorem State.wait_pc (s : State) : (s.wait).pc = s.pc := rfl
@[simp] theorem State.wait_i (s : State) : (s.wait).i = s.i := rfl
@[simp] theorem State.wait_sp (s : State) : (s.wait).sp = s.sp := rfl
@[simp] theorem State.wait_stack (s : State) : (s.wait).stack = s.stack := rfl
@[simp] theorem State.wait_dt (s : State) : (s.wait).dt = s.dt := rfl
@[simp] theorem State.wait_st (s : State) : (s.wait).st = s.st := rfl
@[simp] theorem State.wait_key (s : State) : (s.wait).key = s.key := rfl
@[simp] theorem State.wait_disp (s : State) : (s.wait).disp = s.disp := rfl
@[simp] theorem State.wait_loaded (s : State) : (s.wait).loaded = s.loaded := rfl
@[simp] theorem State.wait_faultCause (s : State) : (s.wait).faultCause = s.faultCause := rfl
@[simp] theorem State.wait_timerRef (s : State) : (s.wait).timerRef = s.timerRef := rfl
@[simp] theorem State.wait_mem (s : State) : (s.wait).mem = s.mem := rfl
@[simp] theorem State.wait_result (s : State) : (s.wait).result = ⟨.waiting, .none, .none⟩ := rfl
@[simp] theorem State.wait_draws (s : State) : (s.wait).draws = s.draws := rfl
@[simp] theorem State.wait_reg (s : State) (r : Nibble) : (s.wait).reg r = s.reg r := rfl
@[simp] theorem State.wait_read (s : State) (adr : Nat) : (s.wait).read adr = s.read adr := rfl

/-! ### `State.fatalHalt` -/

@[simp] theorem State.fatalHalt_v (s : State) (c : FaultCause) : (s.fatalHalt c).v = s.v := rfl
@[simp] theorem State.fatalHalt_pc (s : State) (c : FaultCause) : (s.fatalHalt c).pc = s.pc := rfl
@[simp] theorem State.fatalHalt_i (s : State) (c : FaultCause) : (s.fatalHalt c).i = s.i := rfl
@[simp] theorem State.fatalHalt_sp (s : State) (c : FaultCause) : (s.fatalHalt c).sp = s.sp := rfl
@[simp] theorem State.fatalHalt_stack (s : State) (c : FaultCause) : (s.fatalHalt c).stack = s.stack := rfl
@[simp] theorem State.fatalHalt_dt (s : State) (c : FaultCause) : (s.fatalHalt c).dt = s.dt := rfl
@[simp] theorem State.fatalHalt_st (s : State) (c : FaultCause) : (s.fatalHalt c).st = s.st := rfl
@[simp] theorem State.fatalHalt_key (s : State) (c : FaultCause) : (s.fatalHalt c).key = s.key := rfl
@[simp] theorem State.fatalHalt_disp (s : State) (c : FaultCause) : (s.fatalHalt c).disp = s.disp := rfl
@[simp] theorem State.fatalHalt_loaded (s : State) (c : FaultCause) : (s.fatalHalt c).loaded = false := rfl
@[simp] theorem State.fatalHalt_faultCause (s : State) (c : FaultCause) : (s.fatalHalt c).faultCause = c := rfl
@[simp] theorem State.fatalHalt_timerRef (s : State) (c : FaultCause) : (s.fatalHalt c).timerRef = s.timerRef := rfl
@[simp] theorem State.fatalHalt_mem (s : State) (c : FaultCause) : (s.fatalHalt c).mem = s.mem := rfl
@[simp] theorem State.fatalHalt_result (s : State) (c : FaultCause) : (s.fatalHalt c).result = ⟨.halted, c, .none⟩ := rfl
@[simp] theorem State.fatalHalt_draws (s : State) (c : FaultCause) : (s.fatalHalt c).draws = s.draws := rfl
@[simp] theorem State.fatalHalt_reg (s : State) (c : FaultCause) (r : Nibble) : (s.fatalHalt c).reg r = s.reg r := rfl
@[simp] theorem State.fatalHalt_read (s : State) (c : FaultCause) (adr : Nat) : (s.fatalHalt c).read adr = s.read adr := rfl

/-! ### `State.refuseStep` -/

@[simp] theorem State.refuseStep_v (s : State) : (s.refuseStep).v = s.v := rfl
@[simp] theorem State.refuseStep_pc (s : State) : (s.refuseStep).pc = s.pc := rfl
@[simp] theorem State.refuseStep_i (s : State) : (s.refuseStep).i = s.i := rfl
@[simp] theorem State.refuseStep_sp (s : State) : (s.refuseStep).sp = s.sp := rfl
@[simp] theorem State.refuseStep_stack (s : State) : (s.refuseStep).stack = s.stack := rfl
@[simp] theorem State.refuseStep_dt (s : State) : (s.refuseStep).dt = s.dt := rfl
@[simp] theorem State.refuseStep_st (s : State) : (s.refuseStep).st = s.st := rfl
@[simp] theorem State.refuseStep_key (s : State) : (s.refuseStep).key = s.key := rfl
@[simp] theorem State.refuseStep_disp (s : State) : (s.refuseStep).disp = s.disp := rfl
@[simp] theorem State.refuseStep_loaded (s : State) : (s.refuseStep).loaded = s.loaded := rfl
@[simp] theorem State.refuseStep_faultCause (s : State) : (s.refuseStep).faultCause = s.faultCause := rfl
@[simp] theorem State.refuseStep_timerRef (s : State) : (s.refuseStep).timerRef = s.timerRef := rfl
@[simp] theorem State.refuseStep_mem (s : State) : (s.refuseStep).mem = s.mem := rfl
@[simp] theorem State.refuseStep_result (s : State) : (s.refuseStep).result = ⟨.refused, s.faultCause, .none⟩ := rfl
@[simp] theorem State.refuseStep_draws (s : State) : (s.refuseStep).draws = s.draws := rfl
@[simp] theorem State.refuseStep_reg (s : State) (r : Nibble) : (s.refuseStep).reg r = s.reg r := rfl
@[simp] theorem State.refuseStep_read (s : State) (adr : Nat) : (s.refuseStep).read adr = s.read adr := rfl

/-! ### `State.unrecognized` -/

@[simp] theorem State.unrecognized_v (s : State) : (s.unrecognized).v = s.v := rfl
@[simp] theorem State.unrecognized_pc (s : State) : (s.unrecognized).pc = s.pc + 2 := rfl
@[simp] theorem State.unrecognized_i (s : State) : (s.unrecognized).i = s.i := rfl
@[simp] theorem State.unrecognized_sp (s : State) : (s.unrecognized).sp = s.sp := rfl
@[simp] theorem State.unrecognized_stack (s : State) : (s.unrecognized).stack = s.stack := rfl
@[simp] theorem State.unrecognized_dt (s : State) : (s.unrecognized).dt = s.dt := rfl
@[simp] theorem State.unrecognized_st (s : State) : (s.unrecognized).st = s.st := rfl
@[simp] theorem State.unrecognized_key (s : State) : (s.unrecognized).key = s.key := rfl
@[simp] theorem State.unrecognized_disp (s : State) : (s.unrecognized).disp = s.disp := rfl
@[simp] theorem State.unrecognized_loaded (s : State) : (s.unrecognized).loaded = s.loaded := rfl
@[simp] theorem State.unrecognized_faultCause (s : State) : (s.unrecognized).faultCause = s.faultCause := rfl
@[simp] theorem State.unrecognized_timerRef (s : State) : (s.unrecognized).timerRef = s.timerRef := rfl
@[simp] theorem State.unrecognized_mem (s : State) : (s.unrecognized).mem = s.mem := rfl
@[simp] theorem State.unrecognized_result (s : State) : (s.unrecognized).result = ⟨.ok, .none, .unknownOpcode⟩ := rfl
@[simp] theorem State.unrecognized_draws (s : State) : (s.unrecognized).draws = s.draws := rfl
@[simp] theorem State.unrecognized_reg (s : State) (r : Nibble) : (s.unrecognized).reg r = s.reg r := rfl
@[simp] theorem State.unrecognized_read (s : State) (adr : Nat) : (s.unrecognized).read adr = s.read adr := rfl

/-! ### `State.setFlagThenReg` -/

@[simp] theorem State.setFlagThenReg_pc (s : State) (f : Bool) (x : Nibble) (b : Byte) : (s.setFlagThenReg f x b).pc = s.pc := rfl
@[simp] theorem State.setFlagThenReg_i (s : State) (f : Bool) (x : Nibble) (b : Byte) : (s.setFlagThenReg f x b).i = s.i := rfl
@[simp] theorem State.setFlagThenReg_sp (s : State) (f : Bool) (x : Nibble) (b : Byte) : (s.setFlagThenReg f x b).sp = s.sp := rfl
@[simp] theorem State.setFlagThenReg_stack (s : State) (f : Bool) (x : Nibble) (b : Byte) : (s.setFlagThenReg f x b).stack = s.stack := rfl
@[simp] theorem State.setFlagThenReg_dt (s : State) (f : Bool) (x : Nibble) (b : Byte) : (s.setFlagThenReg f x b).dt = s.dt := rfl
@[simp] theorem State.setFlagThenReg_st (s : State) (f : Bool) (x : Nibble) (b : Byte) : (s.setFlagThenReg f x b).st = s.st := rfl
@[simp] theorem State.setFlagThenReg_key (s : State) (f : Bool) (x : Nibble) (b : Byte) : (s.setFlagThenReg f x b).key = s.key := rfl
@[simp] theorem State.setFlagThenReg_disp (s : State) (f : Bool) (x : Nibble) (b : Byte) : (s.setFlagThenReg f x b).disp = s.disp := rfl
@[simp] theorem State.setFlagThenReg_loaded (s : State) (f : Bool) (x : Nibble) (b : Byte) : (s.setFlagThenReg f x b).loaded = s.loaded := rfl
@[simp] theorem State.setFlagThenReg_faultCause (s : State) (f : Bool) (x : Nibble) (b : Byte) : (s.setFlagThenReg f x b).faultCause = s.faultCause := rfl
@[simp] theorem State.setFlagThenReg_timerRef (s : State) (f : Bool) (x : Nibble) (b : Byte) : (s.setFlagThenReg f x b).timerRef = s.timerRef := rfl
@[simp] theorem State.setFlagThenReg_mem (s : State) (f : Bool) (x : Nibble) (b : Byte) : (s.setFlagThenReg f x b).mem = s.mem := rfl
@[simp] theorem State.setFlagThenReg_result (s : State) (f : Bool) (x : Nibble) (b : Byte) : (s.setFlagThenReg f x b).result = s.result := rfl
@[simp] theorem State.setFlagThenReg_draws (s : State) (f : Bool) (x : Nibble) (b : Byte) : (s.setFlagThenReg f x b).draws = s.draws := rfl
@[simp] theorem State.setFlagThenReg_read (s : State) (f : Bool) (x : Nibble) (b : Byte) (adr : Nat) : (s.setFlagThenReg f x b).read adr = s.read adr := rfl

/-! ### `State.keyEvent` -/

@[simp] theorem State.keyEvent_v (s : State) (k : Nibble) (p : Bool) : (s.keyEvent k p).v = s.v := rfl
@[simp] theorem State.keyEvent_pc (s : State) (k : Nibble) (p : Bool) : (s.keyEvent k p).pc = s.pc := rfl
@[simp] theorem State.keyEvent_i (s : State) (k : Nibble) (p : Bool) : (s.keyEvent k p).i = s.i := rfl
@[simp] theorem State.keyEvent_sp (s : State) (k : Nibble) (p : Bool) : (s.keyEvent k p).sp = s.sp := rfl
@[simp] theorem State.keyEvent_stack (s : State) (k : Nibble) (p : Bool) : (s.keyEvent k p).stack = s.stack := rfl
@[simp] theorem State.keyEvent_dt (s : State) (k : Nibble) (p : Bool) : (s.keyEvent k p).dt = s.dt := rfl
@[simp] theorem State.keyEvent_st (s : State) (k : Nibble) (p : Bool) : (s.keyEvent k p).st = s.st := rfl
@[simp] theorem State.keyEvent_key (s : State) (k : Nibble) (p : Bool) : (s.keyEvent k p).key = s.key.set k.toNat p k.isLt := rfl
@[simp] theorem State.keyEvent_disp (s : State) (k : Nibble) (p : Bool) : (s.keyEvent k p).disp = s.disp := rfl
@[simp] theorem State.keyEvent_loaded (s : State) (k : Nibble) (p : Bool) : (s.keyEvent k p).loaded = s.loaded := rfl
@[simp] theorem State.keyEvent_faultCause (s : State) (k : Nibble) (p : Bool) : (s.keyEvent k p).faultCause = s.faultCause := rfl
@[simp] theorem State.keyEvent_timerRef (s : State) (k : Nibble) (p : Bool) : (s.keyEvent k p).timerRef = s.timerRef := rfl
@[simp] theorem State.keyEvent_mem (s : State) (k : Nibble) (p : Bool) : (s.keyEvent k p).mem = s.mem := rfl
@[simp] theorem State.keyEvent_result (s : State) (k : Nibble) (p : Bool) : (s.keyEvent k p).result = s.result := rfl
@[simp] theorem State.keyEvent_draws (s : State) (k : Nibble) (p : Bool) : (s.keyEvent k p).draws = s.draws := rfl
@[simp] theorem State.keyEvent_reg (s : State) (k : Nibble) (p : Bool) (r : Nibble) : (s.keyEvent k p).reg r = s.reg r := rfl
@[simp] theorem State.keyEvent_read (s : State) (k : Nibble) (p : Bool) (adr : Nat) : (s.keyEvent k p).read adr = s.read adr := rfl

end Sys2Proof.Machine
end

