-- ==== Sys2Proof/Laws/Memory.lean ====
section
/-! SUPPORT. Laws/Memory.lean: read after write, the canonical form of memory, and that every memory operation keeps it
(`20_memory.md` R41, R46). -/

namespace Sys2Proof.Machine

/-- Below its first address, memory in canonical form reads as unlisted. -/
theorem Memory.read_below (m : Memory) (lo k : Nat) (h : Memory.wfFrom lo m = true) (hk : k < lo) :
    Memory.read m k = Memory.unlisted k := by
  induction m generalizing lo with
  | nil => rfl
  | cons d m ih =>
    simp only [Memory.wfFrom, Bool.and_eq_true, decide_eq_true_eq] at h
    simp only [Memory.read]
    rw [if_neg (by omega), ih (d.1 + 1) h.2 (by omega)]

/-- What a write does to every read: the byte written at its own address, and nothing elsewhere. -/
theorem Memory.read_write (m : Memory) (a b : Nat) (v : Byte) (lo : Nat) (h : Memory.wfFrom lo m = true) :
    Memory.read (Memory.write m a v) b = if b = a then v else Memory.read m b := by
  induction m generalizing lo with
  | nil =>
    simp only [Memory.write]
    split <;> by_cases hb : b = a <;> simp_all [Memory.read]
  | cons c m ih =>
    obtain ⟨c, w⟩ := c
    simp only [Memory.wfFrom, Bool.and_eq_true, decide_eq_true_eq] at h
    simp only [Memory.write]
    split
    · rename_i hac
      split
      · rename_i hv
        by_cases hb : b = a
        · subst hb
          simp only [Memory.read, if_neg (show ¬ b = c by omega), if_true, Memory.read_below m (c + 1) b h.2 (by omega), hv]
        · simp [hb]
      · by_cases hb : b = a <;> simp [Memory.read, hb]
    · split
      · rename_i hac
        subst hac
        split
        · rename_i hv
          by_cases hb : b = a
          · subst hb
            rw [Memory.read_below m (b + 1) b h.2 (by omega), hv, if_pos rfl]
          · simp [Memory.read, hb]
        · by_cases hb : b = a <;> simp [Memory.read, hb]
      · rename_i hlt hne
        simp only [Memory.read, ih (c + 1) h.2]
        by_cases hb : b = c
        · subst hb; simp; intro h; omega
        · simp [hb]

/-- The canonical form from an address up is one from every lower address up. -/
theorem Memory.wfFrom_mono (m : Memory) (lo lo' : Nat) (hlo : lo' ≤ lo) (h : Memory.wfFrom lo m = true) :
    Memory.wfFrom lo' m = true := by
  cases m with
  | nil => rfl
  | cons d m =>
    simp only [Memory.wfFrom, Bool.and_eq_true, decide_eq_true_eq] at h ⊢
    exact ⟨⟨⟨by omega, h.1.1.2⟩, h.1.2⟩, h.2⟩

/-- A write at a valid address keeps the canonical form. -/
theorem Memory.wfFrom_write (m : Memory) (a : Nat) (v : Byte) (lo : Nat) (h : Memory.wfFrom lo m = true)
    (hlo : lo ≤ a) (ha : a < Config.memSize) : Memory.wfFrom lo (Memory.write m a v) = true := by
  induction m generalizing lo with
  | nil =>
    simp only [Memory.write]
    split <;> simp_all [Memory.wfFrom]
  | cons c m ih =>
    obtain ⟨c, w⟩ := c
    have h' := h
    simp only [Memory.wfFrom, Bool.and_eq_true, decide_eq_true_eq] at h
    obtain ⟨⟨⟨h1, h2⟩, h3⟩, h4⟩ := h
    simp only [Memory.write]
    split
    · split
      · exact h'
      · rename_i hac hv
        simp only [Memory.wfFrom, Bool.and_eq_true, decide_eq_true_eq]
        exact ⟨⟨⟨hlo, ha⟩, hv⟩, ⟨⟨by omega, h2⟩, h3⟩, h4⟩
    · split
      · rename_i hac
        subst hac
        split
        · exact Memory.wfFrom_mono m (a + 1) lo (by omega) h4
        · rename_i hv
          simp only [Memory.wfFrom, Bool.and_eq_true, decide_eq_true_eq]
          exact ⟨⟨⟨hlo, ha⟩, hv⟩, h4⟩
      · simp only [Memory.wfFrom, Bool.and_eq_true, decide_eq_true_eq]
        exact ⟨⟨⟨h1, h2⟩, h3⟩, ih (c + 1) h4 (by omega)⟩

/-- Memories in canonical form that read the same at every address are the same list. -/
theorem Memory.eq_of_read_eq (m m' : Memory) (lo : Nat) (h : Memory.wfFrom lo m = true)
    (h' : Memory.wfFrom lo m' = true) (hr : ∀ a, Memory.read m a = Memory.read m' a) : m = m' := by
  induction m generalizing m' lo with
  | nil =>
    cases m' with
    | nil => rfl
    | cons c m' =>
      simp only [Memory.wfFrom, Bool.and_eq_true, decide_eq_true_eq] at h'
      have hc := hr c.1
      simp only [Memory.read, if_true] at hc
      exact absurd hc.symm h'.1.2
  | cons d m ih =>
    cases m' with
    | nil =>
      simp only [Memory.wfFrom, Bool.and_eq_true, decide_eq_true_eq] at h
      have hd := hr d.1
      simp only [Memory.read, if_true] at hd
      exact absurd hd h.1.2
    | cons c m' =>
      obtain ⟨d, w⟩ := d
      obtain ⟨c, u⟩ := c
      simp only [Memory.wfFrom, Bool.and_eq_true, decide_eq_true_eq] at h h'
      have hdc : d = c := by
        rcases Nat.lt_trichotomy d c with hlt | heq | hgt
        · have h1 := hr d
          simp only [Memory.read, if_true, if_neg (show ¬ d = c by omega)] at h1
          rw [Memory.read_below m' (c + 1) d h'.2 (by omega)] at h1
          exact absurd h1 h.1.2
        · exact heq
        · have h1 := hr c
          simp only [Memory.read, if_true, if_neg (show ¬ c = d by omega)] at h1
          rw [Memory.read_below m (d + 1) c h.2 (by omega)] at h1
          exact absurd h1.symm h'.1.2
      subst hdc
      have hwu : w = u := by simpa [Memory.read] using hr d
      subst hwu
      have htail : m = m' := by
        refine ih m' (d + 1) h.2 h'.2 fun a => ?_
        have h1 := hr a
        by_cases ha : a = d
        · subst ha
          rw [Memory.read_below m (a + 1) a h.2 (by omega), Memory.read_below m' (a + 1) a h'.2 (by omega)]
        · simpa [Memory.read, ha] using h1
      rw [htail]

/-! ### The same of a state -/

/-- The byte read after a write. -/
theorem State.read_write (s : State) (a b : Nat) (v : Byte) (h : s.mem.wf = true) :
    (s.write a v).read b = if b = a then v else s.read b :=
  Memory.read_write s.mem a b v 0 h

/-- A write at a valid address keeps the canonical form. -/
theorem State.wf_write (s : State) (a : Nat) (v : Byte) (h : s.mem.wf = true) (ha : a < Config.memSize) :
    (s.write a v).mem.wf = true :=
  Memory.wfFrom_write s.mem a v 0 h (Nat.zero_le a) ha

/-- A run of bytes at valid addresses keeps the canonical form. -/
theorem State.wf_writeBytes (s : State) (a : Nat) (bs : List Byte) (h : s.mem.wf = true)
    (ha : a + bs.length ≤ Config.memSize) : (s.writeBytes a bs).mem.wf = true := by
  induction bs generalizing s a with
  | nil => exact h
  | cons b bs ih =>
    simp only [List.length_cons] at ha
    exact ih (s.write a b) (a + 1) (s.wf_write a b h (by omega)) (by omega)

/-- The byte read after a run of bytes is written: the run's own byte inside it, the old byte elsewhere. -/
theorem State.read_writeBytes (s : State) (a b : Nat) (bs : List Byte) (h : s.mem.wf = true)
    (ha : a + bs.length ≤ Config.memSize) :
    (s.writeBytes a bs).read b = if a ≤ b ∧ b < a + bs.length then bs.getD (b - a) 0 else s.read b := by
  induction bs generalizing s a with
  | nil => rw [if_neg (by simp)]; rfl
  | cons c bs ih =>
    simp only [List.length_cons] at ha ⊢
    rw [State.writeBytes, ih (s.write a c) (a + 1) (s.wf_write a c h (by omega)) (by omega), s.read_write a b c h]
    by_cases hb : b = a
    · subst hb
      rw [if_neg (by omega), if_pos rfl, if_pos (by omega)]
      simp
    · rw [if_neg hb]
      by_cases hin : a + 1 ≤ b ∧ b < a + 1 + bs.length
      · rw [if_pos hin, if_pos (by omega), show b - a = (b - (a + 1)) + 1 by omega, List.getD_cons_succ]
      · rw [if_neg hin, if_neg (by omega)]

/-- Nothing but memory changes when bytes are written. -/
theorem State.writeBytes_eq (s : State) (a : Nat) (bs : List Byte) :
    s.writeBytes a bs = { s with mem := (s.writeBytes a bs).mem } := by
  induction bs generalizing s a with
  | nil => rfl
  | cons b bs ih => rw [State.writeBytes, ih]; rfl

/-- The memory a reset leaves is in canonical form. -/
theorem State.wf_resetAt (now0 : Nat) : (State.resetAt now0).mem.wf = true := rfl

end Sys2Proof.Machine
end

