-- ==== Sys2Proof/Laws/Ops.lean ====
section
/-! SUPPORT. Laws/Ops.lean: for each shared operation one lemma that says everything it does, to be cited instead of
unfolding it. -/

namespace Sys2Proof.Machine

/-! ### Registers -/

/-- The register read after a register write. -/
@[simp] theorem State.reg_setReg (s : State) (x r : Nibble) (b : Byte) :
    (s.setReg x b).reg r = if r = x then b else s.reg r := by
  unfold State.reg State.setReg
  by_cases h : r = x
  · subst h; simp
  · have hne : x.toNat ≠ r.toNat := fun h' => h (BitVec.eq_of_toNat_eq h'.symm)
    simp [h, hne]

/-- The two ordered writes of a flag-setting instruction: the value wins where both go to VF (`41_alu.md` R113). -/
@[simp] theorem State.reg_setFlagThenReg (s : State) (f : Bool) (x r : Nibble) (b : Byte) :
    (s.setFlagThenReg f x b).reg r = if r = x then b else if r = vf then flagByte f else s.reg r := by
  simp [State.setFlagThenReg]

/-- Loading registers changes registers only. -/
theorem State.loadRegsFrom_eq (s : State) (base n : Nat) :
    s.loadRegsFrom base n = { s with v := (s.loadRegsFrom base n).v } := by
  induction n with
  | zero => rfl
  | succ n ih => rw [State.loadRegsFrom, ih]; rfl

/-- The registers after `V[0] .. V[n-1]` are loaded from `base` up. -/
theorem State.reg_loadRegsFrom (s : State) (base n : Nat) (hn : n ≤ 16) (r : Nibble) :
    (s.loadRegsFrom base n).reg r = if r.toNat < n then s.read (base + r.toNat) else s.reg r := by
  induction n with
  | zero => rfl
  | succ n ih =>
    rw [State.loadRegsFrom, State.reg_setReg, ih (by omega)]
    have hk := nibble_eq_ofNat_iff r n (by omega)
    by_cases h : r.toNat = n
    · rw [if_pos (hk.2 h), if_pos (by omega), h]
    · rw [if_neg (fun h' => h (hk.1 h'))]
      by_cases h2 : r.toNat < n
      · rw [if_pos h2, if_pos (by omega)]
      · rw [if_neg h2, if_neg (by omega)]

/-- Storing registers changes memory only. -/
theorem State.storeRegsFrom_eq (s : State) (base n : Nat) :
    s.storeRegsFrom base n = { s with mem := (s.storeRegsFrom base n).mem } := by
  induction n with
  | zero => rfl
  | succ n ih => rw [State.storeRegsFrom, ih]; rfl

/-- Storing registers at valid addresses keeps the canonical form of memory. -/
theorem State.wf_storeRegsFrom (s : State) (base n : Nat) (h : s.mem.wf = true) (hn : base + n ≤ Config.memSize) :
    (s.storeRegsFrom base n).mem.wf = true := by
  induction n with
  | zero => exact h
  | succ n ih => exact State.wf_write _ _ _ (ih (by omega)) (by omega)

/-- The bytes after `V[0] .. V[n-1]` are stored from `base` up. -/
theorem State.read_storeRegsFrom (s : State) (base n : Nat) (h : s.mem.wf = true) (hn : base + n ≤ Config.memSize)
    (a : Nat) :
    (s.storeRegsFrom base n).read a =
      if base ≤ a ∧ a < base + n then s.reg (BitVec.ofNat 4 (a - base)) else s.read a := by
  induction n with
  | zero => rw [if_neg (by omega)]; rfl
  | succ n ih =>
    rw [State.storeRegsFrom, State.read_write _ _ _ _ (s.wf_storeRegsFrom base n h (by omega)), ih (by omega)]
    by_cases ha : a = base + n
    · subst ha; rw [if_pos rfl, if_pos (by omega), Nat.add_sub_cancel_left]
    · rw [if_neg ha]
      by_cases h2 : base ≤ a ∧ a < base + n
      · rw [if_pos h2, if_pos (by omega)]
      · rw [if_neg h2, if_neg (by omega)]

/-! ### The return stack -/

theorem State.stackFull_iff (s : State) : s.stackFull = true ↔ s.sp.val = 15 := by
  simp only [State.stackFull, decide_eq_true_eq]; omega

theorem State.stackEmpty_iff (s : State) : s.stackEmpty = true ↔ s.sp.val = 0 := by
  simp only [State.stackEmpty, decide_eq_true_eq]

/-- A push on a stack that is not full moves `sp` up by one. -/
theorem State.push_sp (s : State) (w : Word) (h : s.sp.val < 15) : (s.push w).sp.val = s.sp.val + 1 := by
  simp only [State.push, Fin.ofNat]; omega

/-- The slots after a push on a stack that is not full. -/
theorem State.push_slot (s : State) (w : Word) (h : s.sp.val < 15) (j : Nat) (hj : j < 16) :
    (s.push w).stack[j] = if j = s.sp.val + 1 then w else s.stack[j] := by
  simp only [State.push, Fin.ofNat, Vector.getElem_set]
  have : (s.sp.val + 1) % 16 = s.sp.val + 1 := by omega
  simp only [this]
  by_cases hj' : j = s.sp.val + 1
  · simp [hj']
  · simp [hj', Ne.symm hj']

/-- A pop moves `sp` down by one. -/
theorem State.pop_sp (s : State) : (s.pop).sp.val = s.sp.val - 1 := by
  simp only [State.pop, Fin.ofNat]; omega

/-! ### Addresses -/

@[simp] theorem validAddress_iff (a : Nat) : validAddress a = true ↔ a < 4096 := by
  unfold validAddress Config.memSize; exact decide_eq_true_iff

@[simp] theorem effectiveAddress_eq (s : State) (k : Nat) : effectiveAddress s k = s.i.toNat + k := rfl

/-! ### The display -/

/-- The row of a display after one row is written. -/
theorem displayRow_setIfInBounds (d : Vector PixelRow 32) (y z : Nat) (r : PixelRow) (hy : y < 32) :
    displayRow (d.setIfInBounds y r) z = if z = y then r else displayRow d z := by
  by_cases h : z = y
  · subst h; simp [displayRow, hy]
  · simp [displayRow, h, Ne.symm h]

/-- The display after `n` sprite rows from row `y0` down: each of them XORed, no other row changed (`43_display.md`
R141). -/
theorem displayRow_drawRows (s : State) (x0 y0 n : Nat) (hn : y0 + n ≤ 32) (y : Nat) :
    displayRow (drawRows s x0 y0 n).1 y =
      if y0 ≤ y ∧ y < y0 + n then
        displayRow s.disp y ^^^ spritePattern x0 (s.read (s.i.toNat + (y - y0)))
      else displayRow s.disp y := by
  induction n with
  | zero => rw [if_neg (by omega)]; rfl
  | succ n ih =>
    simp only [drawRows, effectiveAddress_eq]
    rw [displayRow_setIfInBounds _ _ _ _ (by omega)]
    by_cases h : y = y0 + n
    · subst h
      rw [if_pos rfl, if_pos (by omega)]
      have h0 := ih (by omega)
      rw [if_neg (by omega)] at h0
      rw [h0, Nat.add_sub_cancel_left]
    · rw [if_neg h, ih (by omega)]
      by_cases h2 : y0 ≤ y ∧ y < y0 + n
      · rw [if_pos h2, if_pos (by omega)]
      · rw [if_neg h2, if_neg (by omega)]

/-- The collision flag after `n` sprite rows: some drawn row had a pixel on where the pattern is on (`43_display.md`
R141). -/
theorem hit_drawRows (s : State) (x0 y0 n : Nat) (hn : y0 + n ≤ 32) :
    (drawRows s x0 y0 n).2 = true ↔
      ∃ j < n, displayRow s.disp (y0 + j) &&& spritePattern x0 (s.read (s.i.toNat + j)) ≠ 0 := by
  induction n with
  | zero => simp [drawRows]
  | succ n ih =>
    have h0 := displayRow_drawRows s x0 y0 n (by omega) (y0 + n)
    rw [if_neg (by omega)] at h0
    simp only [drawRows, effectiveAddress_eq, Bool.or_eq_true, decide_eq_true_eq, ih (by omega), h0]
    constructor
    · rintro (⟨j, hj, h⟩ | h)
      · exact ⟨j, by omega, h⟩
      · exact ⟨n, by omega, h⟩
    · rintro ⟨j, hj, h⟩
      by_cases hjn : j = n
      · subst hjn; exact .inr h
      · exact .inl ⟨j, by omega, h⟩

/-- Where the bits of a sprite byte land: bit `7 - d` on column `x0 + d`, nothing past column 63 (`43_display.md`
R142). -/
theorem spritePattern_pixel (x0 x : Nat) (b : Byte) (h0 : x0 < 64) (hx : x < 64) :
    (spritePattern x0 b).getLsbD (63 - x) = (decide (x0 ≤ x ∧ x < x0 + 8) && b.getLsbD (7 - (x - x0))) := by
  unfold spritePattern
  split
  · simp only [BitVec.getLsbD_shiftLeft, BitVec.getLsbD_setWidth]
    by_cases h : x0 ≤ x ∧ x < x0 + 8
    · have e : 63 - x - (56 - x0) = 7 - (x - x0) := by omega
      have h1 : 63 - x < 64 := by omega
      have h2 : ¬ 63 - x < 56 - x0 := by omega
      have h3 : 7 - (x - x0) < 64 := by omega
      simp [h, e, h1, h2, h3]
    · by_cases h1 : x < x0
      · have : b.getLsbD (63 - x - (56 - x0)) = false := BitVec.getLsbD_of_ge _ _ (by omega)
        simp [this, h]
      · have : 63 - x < 56 - x0 := by omega
        simp [this, h]
  · simp only [BitVec.getLsbD_ushiftRight, BitVec.getLsbD_setWidth]
    by_cases h : x0 ≤ x ∧ x < x0 + 8
    · have e : x0 - 56 + (63 - x) = 7 - (x - x0) := by omega
      have h3 : 7 - (x - x0) < 64 := by omega
      simp [h, e, h3]
    · have : b.getLsbD (x0 - 56 + (63 - x)) = false := BitVec.getLsbD_of_ge _ _ (by omega)
      simp [this, h]

/-! ### Keys -/

/-- The key of `v` when it names one, and not pressed when it does not (`44_keypad_timers.md` R156). -/
theorem pressed_eq (s : State) (v : Byte) : pressed s v = if h : v.toNat < 16 then s.key[v.toNat] else false := by
  unfold pressed
  split <;> simp [*]

/-- No key is found iff none is pressed (`44_keypad_timers.md` R153). -/
theorem leastPressedKey_none (s : State) : leastPressedKey s = none ↔ ∀ k : Fin 16, s.key[k] = false := by
  simp only [leastPressedKey, List.find?_eq_none, List.mem_range]
  constructor
  · intro h k
    have := h k.val k.isLt
    simpa using this
  · intro h k hk
    have := h ⟨k, hk⟩
    simpa [hk] using this

/-- The key found is pressed, and none below it is (`44_keypad_timers.md` R153). -/
theorem leastPressedKey_some (s : State) (k : Nat) (h : leastPressedKey s = some k) :
    ∃ hk : k < 16, s.key[k] = true ∧ ∀ j (hj : j < k), s.key[j]'(by omega) = false := by
  unfold leastPressedKey at h
  rw [List.find?_range_eq_some] at h
  obtain ⟨hp, hk, hmin⟩ := h
  have hk' : k < 16 := List.mem_range.1 hk
  refine ⟨hk', by simpa [hk'] using hp, fun j hj => ?_⟩
  have := hmin j hj
  simpa [show j < 16 by omega] using this

/-! ### The parameters of this hardware -/

@[simp] theorem shiftOperand_hardware (s : State) (x y : Nibble) :
    shiftOperand Config.shiftUsesVY s x y = s.reg x := rfl

@[simp] theorem indexAfterTransfer_hardware (s : State) (x : Nibble) :
    indexAfterTransfer Config.loadStoreIncrementsI s x = s.i := rfl

/-! ### Operations from outside -/

/-- Everything Tick can do (`60_exceptions.md` R183). -/
theorem State.tickWith_cases (period : Nat) (s : State) (now : Nat) :
    (now < s.timerRef ∧ s.tickWith period now = .refused .timeBackwards) ∨
    (s.timerRef ≤ now ∧ period ≤ now - s.timerRef ∧
      s.tickWith period now = .next { s with dt := countDown s.dt, st := countDown s.st, timerRef := now }) ∨
    (s.timerRef ≤ now ∧ now - s.timerRef < period ∧ s.tickWith period now = .next s) := by
  unfold State.tickWith
  split
  · exact .inl ⟨by assumption, rfl⟩
  · split
    · exact .inr (.inl ⟨by omega, by assumption, rfl⟩)
    · exact .inr (.inr ⟨by omega, by omega, rfl⟩)

end Sys2Proof.Machine
end

