-- ==== Sys2Proof/Laws/Frames.lean ====
section
/-! SUPPORT. Laws/Frames.lean: what the shared ways of ending an instruction leave unchanged, in the terms of
Safety.lean. -/

namespace Sys2Proof.Machine

open Sys2Proof.Safety

/-- A frame for a list of pieces is one for every longer list. -/
theorem keepsAllBut_mono {ps qs : List Part} {s t : State} (h : KeepsAllBut ps s t) (hs : ∀ p ∈ ps, p ∈ qs) :
    KeepsAllBut qs s t := fun p hp => h p fun hp' => hp (hs p hp')

/-- A fatal halt is precise (`60_exceptions.md` R173). -/
theorem State.fatalHalt_halted (s : State) (c : FaultCause) : Halted c s (s.fatalHalt c) :=
  ⟨rfl, rfl, rfl, fun p hp => by cases p <;> simp_all [Keeps]⟩

/-- A skip changes the program counter and the result only (`10_state.md` R13). -/
theorem State.skipIfAdvised_frame (s : State) (c : Bool) (a : Advisory) :
    KeepsAllBut [.pc, .result] s (s.skipIfAdvised c a) := fun p hp => by cases p <;> simp_all [Keeps]

/-- A jump changes the program counter and the result only (`10_state.md` R13). -/
theorem State.jumpTo_frame (s : State) (w : Word) : KeepsAllBut [.pc, .result] s (s.jumpTo w) :=
  fun p hp => by cases p <;> simp_all [Keeps]

/-- Advancing after an update keeps what the update keeps (`10_state.md` R13, sequential). -/
theorem State.nextInstr_sequential (s u : State) (ps : List Part) (h : KeepsAllBut ps s u) (hpc : .pc ∉ ps) :
    Sequential ps s u.nextInstr := by
  refine ⟨?_, rfl, fun p hp => ?_⟩
  · have := h .pc hpc
    simp_all [Keeps]
  · have hp' : p ∉ ps := fun h' => hp (by simp [h'])
    have := h p hp'
    cases p <;> simp_all [Keeps]

/-- One register write changes that register only (`10_state.md` R10: no two registers alias). -/
theorem State.setReg_frame (s : State) (x : Nibble) (b : Byte) :
    RegsKeptBut [x] s (s.setReg x b) ∧ KeepsAllBut [.v] s (s.setReg x b) :=
  ⟨fun r hr => by simp_all, fun p hp => by cases p <;> simp_all [Keeps, State.read]⟩

/-- The two writes of a flag instruction change VF and the destination only (`41_alu.md` R113). -/
theorem State.setFlagThenReg_frame (s : State) (f : Bool) (x : Nibble) (b : Byte) :
    RegsKeptBut [x, vf] s (s.setFlagThenReg f x b) ∧ KeepsAllBut [.v] s (s.setFlagThenReg f x b) :=
  ⟨fun r hr => by simp_all, fun p hp => by cases p <;> simp_all [Keeps, State.read]⟩

end Sys2Proof.Machine
end

