-- ==== Sys2Proof/Laws/PerInstr.lean ====
section
/-! SUPPORT. Laws/PerInstr.lean: the family `MatchesRow`: the word of an instruction, with every operand, matches the mask
and match of its own row of `30_encoding.md` R63. -/

namespace Sys2Proof.Laws

/-- The encoding of the instruction matches its row of R63. -/
def MatchesRow.Statement (i : Instr) : Prop := encode i &&& (opcodeRow i).1 = (opcodeRow i).2

theorem MatchesRow.nnn (g : Nibble) (nnn : Addr12) :
    encodeNNN g nnn &&& 0xF000 = g.setWidth 16 <<< 12 := by
  ext k hk; interval_cases k <;> simp [encodeNNN]

theorem MatchesRow.xnn (g x : Nibble) (nn : Byte) :
    encodeXNN g x nn &&& 0xF000 = g.setWidth 16 <<< 12 := by
  ext k hk; interval_cases k <;> simp [encodeXNN]

theorem MatchesRow.xyn (g x y n : Nibble) :
    encodeXYN g x y n &&& 0xF000 = g.setWidth 16 <<< 12 := by
  ext k hk; interval_cases k <;> simp [encodeXYN]

theorem MatchesRow.xyf (g x y n : Nibble) :
    encodeXYN g x y n &&& 0xF00F = g.setWidth 16 <<< 12 ||| n.setWidth 16 := by
  ext k hk; interval_cases k <;> simp [encodeXYN]

theorem MatchesRow.xff (g x : Nibble) (nn : Byte) :
    encodeXNN g x nn &&& 0xF0FF = g.setWidth 16 <<< 12 ||| nn.setWidth 16 := by
  ext k hk; interval_cases k <;> simp [encodeXNN]

theorem MatchesRow.cls : MatchesRow.Statement .cls := rfl
theorem MatchesRow.ret : MatchesRow.Statement .ret := rfl
theorem MatchesRow.jp (nnn : Addr12) : MatchesRow.Statement (.jp nnn) := MatchesRow.nnn 0x1 nnn
theorem MatchesRow.call (nnn : Addr12) : MatchesRow.Statement (.call nnn) := MatchesRow.nnn 0x2 nnn
theorem MatchesRow.seImm (x : Nibble) (nn : Byte) : MatchesRow.Statement (.seImm x nn) := MatchesRow.xnn 0x3 x nn
theorem MatchesRow.sneImm (x : Nibble) (nn : Byte) : MatchesRow.Statement (.sneImm x nn) := MatchesRow.xnn 0x4 x nn
theorem MatchesRow.seReg (x : Nibble) (y : Nibble) (n : Nibble) : MatchesRow.Statement (.seReg x y n) := MatchesRow.xyn 0x5 x y n
theorem MatchesRow.ldImm (x : Nibble) (nn : Byte) : MatchesRow.Statement (.ldImm x nn) := MatchesRow.xnn 0x6 x nn
theorem MatchesRow.addImm (x : Nibble) (nn : Byte) : MatchesRow.Statement (.addImm x nn) := MatchesRow.xnn 0x7 x nn
theorem MatchesRow.ldReg (x : Nibble) (y : Nibble) : MatchesRow.Statement (.ldReg x y) := MatchesRow.xyf 0x8 x y 0x0
theorem MatchesRow.orReg (x : Nibble) (y : Nibble) : MatchesRow.Statement (.orReg x y) := MatchesRow.xyf 0x8 x y 0x1
theorem MatchesRow.andReg (x : Nibble) (y : Nibble) : MatchesRow.Statement (.andReg x y) := MatchesRow.xyf 0x8 x y 0x2
theorem MatchesRow.xorReg (x : Nibble) (y : Nibble) : MatchesRow.Statement (.xorReg x y) := MatchesRow.xyf 0x8 x y 0x3
theorem MatchesRow.addReg (x : Nibble) (y : Nibble) : MatchesRow.Statement (.addReg x y) := MatchesRow.xyf 0x8 x y 0x4
theorem MatchesRow.subReg (x : Nibble) (y : Nibble) : MatchesRow.Statement (.subReg x y) := MatchesRow.xyf 0x8 x y 0x5
theorem MatchesRow.shr (x : Nibble) (y : Nibble) : MatchesRow.Statement (.shr x y) := MatchesRow.xyf 0x8 x y 0x6
theorem MatchesRow.subn (x : Nibble) (y : Nibble) : MatchesRow.Statement (.subn x y) := MatchesRow.xyf 0x8 x y 0x7
theorem MatchesRow.shl (x : Nibble) (y : Nibble) : MatchesRow.Statement (.shl x y) := MatchesRow.xyf 0x8 x y 0xE
theorem MatchesRow.sneReg (x : Nibble) (y : Nibble) (n : Nibble) : MatchesRow.Statement (.sneReg x y n) := MatchesRow.xyn 0x9 x y n
theorem MatchesRow.ldI (nnn : Addr12) : MatchesRow.Statement (.ldI nnn) := MatchesRow.nnn 0xA nnn
theorem MatchesRow.jpV0 (nnn : Addr12) : MatchesRow.Statement (.jpV0 nnn) := MatchesRow.nnn 0xB nnn
theorem MatchesRow.rnd (x : Nibble) (nn : Byte) : MatchesRow.Statement (.rnd x nn) := MatchesRow.xnn 0xC x nn
theorem MatchesRow.drw (x : Nibble) (y : Nibble) (n : Nibble) : MatchesRow.Statement (.drw x y n) := MatchesRow.xyn 0xD x y n
theorem MatchesRow.skp (x : Nibble) : MatchesRow.Statement (.skp x) := MatchesRow.xff 0xE x 0x9E
theorem MatchesRow.sknp (x : Nibble) : MatchesRow.Statement (.sknp x) := MatchesRow.xff 0xE x 0xA1
theorem MatchesRow.ldVxDt (x : Nibble) : MatchesRow.Statement (.ldVxDt x) := MatchesRow.xff 0xF x 0x07
theorem MatchesRow.ldVxK (x : Nibble) : MatchesRow.Statement (.ldVxK x) := MatchesRow.xff 0xF x 0x0A
theorem MatchesRow.ldDtVx (x : Nibble) : MatchesRow.Statement (.ldDtVx x) := MatchesRow.xff 0xF x 0x15
theorem MatchesRow.ldStVx (x : Nibble) : MatchesRow.Statement (.ldStVx x) := MatchesRow.xff 0xF x 0x18
theorem MatchesRow.addI (x : Nibble) : MatchesRow.Statement (.addI x) := MatchesRow.xff 0xF x 0x1E
theorem MatchesRow.ldF (x : Nibble) : MatchesRow.Statement (.ldF x) := MatchesRow.xff 0xF x 0x29
theorem MatchesRow.ldB (x : Nibble) : MatchesRow.Statement (.ldB x) := MatchesRow.xff 0xF x 0x33
theorem MatchesRow.storeRegs (x : Nibble) : MatchesRow.Statement (.storeRegs x) := MatchesRow.xff 0xF x 0x55
theorem MatchesRow.loadRegs (x : Nibble) : MatchesRow.Statement (.loadRegs x) := MatchesRow.xff 0xF x 0x65

end Sys2Proof.Laws
end

