-- ==== Sys2Proof/Laws/Step.lean ====
section
/-! SUPPORT. Laws/Step.lean: what one Step can do, said once (`30_encoding.md` R70, `60_exceptions.md` R179), and that
every instruction has a next state. -/

namespace Sys2Proof.Machine

/-- The four ways a Step goes: refused, a fetch out of bounds, an unrecognized word, or the decoded instruction. -/
theorem step_cases (s : State) :
    (s.loaded = false ∧ step s = .next s.refuseStep) ∨
    (s.loaded = true ∧ s.pc.toNat + 1 ≥ 4096 ∧ step s = .next (s.fatalHalt .fetchOob)) ∨
    (s.loaded = true ∧ s.pc.toNat + 1 < 4096 ∧ (∃ e, decodeWord s.fetchWord = .error e) ∧
      step s = .next s.unrecognized) ∨
    (s.loaded = true ∧ s.pc.toNat + 1 < 4096 ∧ ∃ i, decodeWord s.fetchWord = .ok i ∧ step s = exec i s) := by
  unfold step
  cases s.loaded
  · simp
  · by_cases hf : s.fetchValid = true
    · have hp : s.pc.toNat + 1 < 4096 := by simpa [State.fetchValid] using hf
      cases decodeWord s.fetchWord <;> simp [hf, hp]
    · have hp : s.pc.toNat + 1 ≥ 4096 := by simpa [State.fetchValid] using hf
      simp [hf, hp]

/-- No instruction faults or is refused. -/
theorem exec_next (i : Instr) (s : State) : ∃ t, exec i s = .next t := by
  cases i with
  | ret => simp only [exec, execRet]; split <;> exact ⟨_, rfl⟩
  | call => simp only [exec, execCall]; split <;> exact ⟨_, rfl⟩
  | drw => simp only [exec, execDrw]; split <;> exact ⟨_, rfl⟩
  | ldVxK => simp only [exec, execLdVxK]; split <;> exact ⟨_, rfl⟩
  | ldB => simp only [exec, execLdB]; split <;> exact ⟨_, rfl⟩
  | storeRegs => simp only [exec, execStoreRegs]; split <;> exact ⟨_, rfl⟩
  | loadRegs => simp only [exec, execLoadRegs]; split <;> exact ⟨_, rfl⟩
  | _ => exact ⟨_, rfl⟩

end Sys2Proof.Machine
end

