-- ==== Sys2Proof/Tests/Slice0.lean ====
section
/-! SUPPORT. Tests/Slice0.lean: the smoke test of what is refused as ill formed, the decoding of words written out bit by
bit from `30_encoding.md` R61 to R63, one Step at a time from the vectors of `95_test_vectors.md`, and a witness for the
hypotheses of every statement. -/

namespace Sys2Proof.Tests

open Sys2Proof.Machine Sys2Proof.Safety

/-- Reset, then Install of the one byte 0x00: loaded, everything else at its reset value. -/
def ready : State := State.reset.install [0x00]

/-- The state one Step leaves when the word `w` lies at `pc`. -/
def ran (s : State) (w : Nat) : State :=
  match step (s.withFetchWord 16 w) with
  | .next t => t
  | .fault _ | .refused _ => State.reset

/-- The state an answer holds. -/
def left (a : Answer) : State :=
  match a with
  | .next t => t
  | .fault _ | .refused _ => State.reset

/-- The Step result `OK` with nothing to report. -/
def okay : StepResult := ⟨.ok, .none, .none⟩

/-! ### What is ill formed is refused -/

/-- R68: the low nibble of groups 5 and 9 is 0 in what an assembler emits. -/
theorem test_noncanonical_se : Instr.canonical (.seReg 1 2 1) = false ∧ Instr.canonical (.seReg 1 2 0) = true := by
  decide
theorem test_noncanonical_sne : Instr.canonical (.sneReg 1 2 0xF) = false ∧ Instr.canonical (.sneReg 1 2 0) = true := by
  decide
/-- R69: the shifts are emitted with `Y = 0`. -/
theorem test_noncanonical_shr : Instr.canonical (.shr 1 2) = false ∧ Instr.canonical (.shr 1 0) = true := by decide
theorem test_noncanonical_shl : Instr.canonical (.shl 1 2) = false ∧ Instr.canonical (.shl 1 0) = true := by decide
/-- T70-2: an image of no byte, and one of 3585 bytes. -/
theorem test_image_empty : imageAccepted [] = false := by decide
theorem test_image_too_long : imageAccepted (List.replicate 3585 0xAB) = false := by
  unfold imageAccepted; rw [List.length_replicate]; decide
/-- T70-3: an image of 3584 bytes. -/
theorem test_image_longest : imageAccepted (List.replicate 3584 0xAB) = true := by
  unfold imageAccepted; rw [List.length_replicate]; decide
/-- Memory that lists addresses out of order, twice, at 4096, or with their reset content, is not canonical. -/
theorem test_memory_form : Memory.wf [(0x301, 1), (0x300, 1)] = false ∧ Memory.wf [(0x300, 1), (0x300, 2)] = false ∧
    Memory.wf [(0x1000, 1)] = false ∧ Memory.wf [(0x300, 0)] = false ∧ Memory.wf [(0, 0xF0)] = false ∧
    Memory.wf [(0, 0), (0x300, 1), (0xFFF, 1)] = true := by decide

/-! ### Words written out from the encodings of R61 to R63 -/

theorem test_decode_cls : decodeWord 0b0000_0000_1110_0000 = .ok .cls := by decide
theorem test_decode_ret : decodeWord 0b0000_0000_1110_1110 = .ok .ret := by decide
theorem test_decode_jp : decodeWord 0b0001_1010_1011_1100 = .ok (.jp 0xABC) := by decide
theorem test_decode_call : decodeWord 0b0010_0010_0000_1000 = .ok (.call 0x208) := by decide
theorem test_decode_seImm : decodeWord 0b0011_1010_0100_0010 = .ok (.seImm 0xA 0x42) := by decide
theorem test_decode_sneImm : decodeWord 0b0100_1010_0100_0010 = .ok (.sneImm 0xA 0x42) := by decide
theorem test_decode_seReg : decodeWord 0b0101_0001_0010_0011 = .ok (.seReg 1 2 3) := by decide
theorem test_decode_ldImm : decodeWord 0b0110_1010_0010_1011 = .ok (.ldImm 0xA 0x2B) := by decide
theorem test_decode_addImm : decodeWord 0b0111_0000_1111_1110 = .ok (.addImm 0 0xFE) := by decide
theorem test_decode_ldReg : decodeWord 0b1000_0001_0010_0000 = .ok (.ldReg 1 2) := by decide
theorem test_decode_orReg : decodeWord 0b1000_0001_0010_0001 = .ok (.orReg 1 2) := by decide
theorem test_decode_andReg : decodeWord 0b1000_0001_0010_0010 = .ok (.andReg 1 2) := by decide
theorem test_decode_xorReg : decodeWord 0b1000_0001_0010_0011 = .ok (.xorReg 1 2) := by decide
theorem test_decode_addReg : decodeWord 0b1000_0001_0010_0100 = .ok (.addReg 1 2) := by decide
theorem test_decode_subReg : decodeWord 0b1000_0001_0010_0101 = .ok (.subReg 1 2) := by decide
theorem test_decode_shr : decodeWord 0b1000_0001_0010_0110 = .ok (.shr 1 2) := by decide
theorem test_decode_subn : decodeWord 0b1000_0001_0010_0111 = .ok (.subn 1 2) := by decide
theorem test_decode_shl : decodeWord 0b1000_0001_0010_1110 = .ok (.shl 1 2) := by decide
theorem test_decode_sneReg : decodeWord 0b1001_0001_0010_0011 = .ok (.sneReg 1 2 3) := by decide
theorem test_decode_ldI : decodeWord 0b1010_0001_0010_0011 = .ok (.ldI 0x123) := by decide
theorem test_decode_jpV0 : decodeWord 0b1011_0001_0010_0011 = .ok (.jpV0 0x123) := by decide
theorem test_decode_rnd : decodeWord 0b1100_0011_0000_1111 = .ok (.rnd 3 0x0F) := by decide
/-- T30-9: `D5A7` has `X = 5`, `Y = A`, `N = 7`. -/
theorem test_decode_drw : decodeWord 0b1101_0101_1010_0111 = .ok (.drw 5 0xA 7) := by decide
theorem test_decode_skp : decodeWord 0b1110_0010_1001_1110 = .ok (.skp 2) := by decide
theorem test_decode_sknp : decodeWord 0b1110_0010_1010_0001 = .ok (.sknp 2) := by decide
theorem test_decode_ldVxDt : decodeWord 0b1111_0011_0000_0111 = .ok (.ldVxDt 3) := by decide
theorem test_decode_ldVxK : decodeWord 0b1111_0011_0000_1010 = .ok (.ldVxK 3) := by decide
theorem test_decode_ldDtVx : decodeWord 0b1111_0011_0001_0101 = .ok (.ldDtVx 3) := by decide
theorem test_decode_ldStVx : decodeWord 0b1111_0011_0001_1000 = .ok (.ldStVx 3) := by decide
theorem test_decode_addI : decodeWord 0b1111_0011_0001_1110 = .ok (.addI 3) := by decide
theorem test_decode_ldF : decodeWord 0b1111_0011_0010_1001 = .ok (.ldF 3) := by decide
theorem test_decode_ldB : decodeWord 0b1111_0011_0011_0011 = .ok (.ldB 3) := by decide
theorem test_decode_storeRegs : decodeWord 0b1111_0011_0101_0101 = .ok (.storeRegs 3) := by decide
theorem test_decode_loadRegs : decodeWord 0b1111_0011_0110_0101 = .ok (.loadRegs 3) := by decide
/-- T30-1, T30-2: group 0 is matched on the whole word. -/
theorem test_reject_group0 : decodeWord 0x0000 = .error .group0 ∧ decodeWord 0x00E1 = .error .group0 ∧
    decodeWord 0x01E0 = .error .group0 ∧ decodeWord 0x0EE0 = .error .group0 := by decide
/-- T30-3. -/
theorem test_reject_group8 : decodeWord 0x8128 = .error .group8 ∧ decodeWord 0x812F = .error .group8 := by decide
/-- T30-4. -/
theorem test_reject_groupE : decodeWord 0xE19F = .error .groupE ∧ decodeWord 0xE1A0 = .error .groupE := by decide
theorem test_reject_groupF : decodeWord 0xF100 = .error .groupF ∧ decodeWord 0xF130 = .error .groupF ∧
    decodeWord 0xF175 = .error .groupF ∧ decodeWord 0xF1FF = .error .groupF := by decide
/-- The high byte of a word is the first (`20_memory.md` R47). -/
theorem test_decode_bytes : decode [0xD5, 0xA7, 0x12] = .ok (.drw 5 0xA 7, [0x12]) ∧ decode [0xD5] = .error .truncated ∧
    decodeTableWord 16 0xD5A7 = some (.drw 5 0xA 7) := by decide

/-! ### The Step around an instruction -/

/-- T30-10: after Reset alone a Step is refused. -/
theorem test_refused : step State.reset = .next { State.reset with result := ⟨.refused, .none, .none⟩ } := rfl
/-- T30-1: the word 0000. -/
theorem test_unknown : (ran ready 0x0000).pc = 0x202 ∧ (ran ready 0x0000).result = ⟨.ok, .none, .unknownOpcode⟩ := by
  decide
/-- T30-7: `pc = 0FFF`. -/
theorem test_fetch_oob : (left (step { ready with pc := 0xFFF })).result = ⟨.halted, .fetchOob, .none⟩ ∧
    (left (step { ready with pc := 0xFFF })).pc = 0xFFF ∧
    (left (step { ready with pc := 0xFFF })).loaded = false := by decide
/-- T30-6: `pc = 0FFE` is still fetched. -/
theorem test_fetch_top : (ran { ready with pc := 0xFFE } 0x602A).reg 0 = 0x2A ∧
    (ran { ready with pc := 0xFFE } 0x602A).pc = 0x1000 := by decide
/-- T30-8: an odd `pc` fetches the bytes at 201 and 202. -/
theorem test_fetch_odd :
    (left (step { ready.writeBytes 0x200 [0x60, 0x12, 0x05, 0x00] with pc := 0x201 })).pc = 0x205 := by decide

/-! ### Control transfer -/

/-- T40-1, T40-2. -/
theorem test_jp : (ran ready 0x1FFF).pc = 0xFFF ∧ (ran ready 0x1201).pc = 0x201 := by decide
/-- T40-3. -/
theorem test_call : (ran { ready with pc := 0x300, sp := 14 } 0x2ABC).pc = 0xABC ∧
    (ran { ready with pc := 0x300, sp := 14 } 0x2ABC).sp = 15 ∧
    (ran { ready with pc := 0x300, sp := 14 } 0x2ABC).stack[15] = 0x300 := by decide
/-- T40-4. -/
theorem test_call_overflow : (ran { ready with pc := 0x300, sp := 15 } 0x2ABC).result = ⟨.halted, .stackOverflow, .none⟩ ∧
    (ran { ready with pc := 0x300, sp := 15 } 0x2ABC).pc = 0x300 ∧
    (ran { ready with pc := 0x300, sp := 15 } 0x2ABC).sp = 15 := by decide
/-- T40-5: the slot keeps its value. -/
theorem test_ret : (ran { ready with sp := 3, stack := ready.stack.set 3 0xABC } 0x00EE).pc = 0xABE ∧
    (ran { ready with sp := 3, stack := ready.stack.set 3 0xABC } 0x00EE).sp = 2 ∧
    (ran { ready with sp := 3, stack := ready.stack.set 3 0xABC } 0x00EE).stack[3] = 0xABC := by decide
/-- T40-6. -/
theorem test_ret_underflow : (ran ready 0x00EE).result = ⟨.halted, .stackUnderflow, .none⟩ ∧ (ran ready 0x00EE).pc = 0x200 ∧
    (ran ready 0x00EE).faultCause.code = 5 := by decide
/-- T40-8. -/
theorem test_seImm : (ran (ready.setReg 0xA 0x42) 0x3A42).pc = 0x204 ∧ (ran (ready.setReg 0xA 0x43) 0x3A42).pc = 0x202 := by
  decide
/-- T40-10. -/
theorem test_sneImm : (ran (ready.setReg 0xA 0x42) 0x4A42).pc = 0x202 ∧ (ran (ready.setReg 0xA 0x43) 0x4A42).pc = 0x204 := by
  decide
/-- T30-5: the low nibble is not examined. -/
theorem test_seReg : (ran ((ready.setReg 1 7).setReg 2 7) 0x5121).pc = 0x204 ∧ (ran (ready.setReg 1 7) 0x5121).pc = 0x202 := by
  decide
theorem test_sneReg : (ran ((ready.setReg 1 7).setReg 2 7) 0x9121).pc = 0x202 ∧ (ran (ready.setReg 1 7) 0x9121).pc = 0x204 := by
  decide
/-- T40-13, T40-14. -/
theorem test_jpV0 : (ran (ready.setReg 0 0xFF) 0xBFFF).pc = 0x10FE ∧
    (ran ((ready.setReg 0 2).setReg 0xF 0x77) 0xB2FE).pc = 0x300 ∧
    (ran ((ready.setReg 0 2).setReg 0xF 0x77) 0xB2FE).reg 0xF = 0x77 := by decide

/-! ### Arithmetic and logic -/

/-- T41-1. -/
theorem test_ldImm : (ran ready 0x6A2B).reg 0xA = 0x2B ∧ (ran ready 0x6A2B).pc = 0x202 := by decide
/-- S2. -/
theorem test_addImm_wraps : (ran ((ready.setReg 0 0xFF).setReg 0xF 9) 0x7002).reg 0 = 1 ∧
    (ran ((ready.setReg 0 0xFF).setReg 0xF 9) 0x7002).reg 0xF = 9 := by decide
/-- T41-2. -/
theorem test_addImm_vf : (ran (ready.setReg 0xF 0xFF) 0x7F01).reg 0xF = 0 := by decide
/-- T41-3. -/
theorem test_ldReg : (ran (ready.setReg 1 0x5A) 0x8010).reg 0 = 0x5A := by decide
/-- T41-4. -/
theorem test_orReg : (ran (((ready.setReg 0 0xF0).setReg 1 0x0F).setReg 0xF 0x55) 0x8011).reg 0 = 0xFF ∧
    (ran (((ready.setReg 0 0xF0).setReg 1 0x0F).setReg 0xF 0x55) 0x8011).reg 0xF = 0x55 := by decide
/-- T41-5. -/
theorem test_andReg : (ran ((ready.setReg 0 0xF0).setReg 1 0x3C) 0x8012).reg 0 = 0x30 := by decide
/-- T41-6. -/
theorem test_xorReg : (ran (ready.setReg 0 0xA7) 0x8003).reg 0 = 0 := by decide
/-- S3. -/
theorem test_addReg : (ran ((ready.setReg 0 0xFF).setReg 1 1) 0x8014).reg 0 = 0 ∧
    (ran ((ready.setReg 0 0xFF).setReg 1 1) 0x8014).reg 0xF = 1 ∧
    (ran (((ready.setReg 0 1).setReg 1 1).setReg 0xF 1) 0x8014).reg 0xF = 0 := by decide
/-- T41-12, T41-20. -/
theorem test_addReg_vf : (ran ((ready.setReg 0xF 0xFF).setReg 1 3) 0x8F14).reg 0xF = 2 ∧
    (ran (ready.setReg 0xF 0x90) 0x8FF4).reg 0xF = 0x20 := by decide
/-- S4. -/
theorem test_subReg : (ran (((ready.setReg 0 5).setReg 1 0xA).setReg 0xF 1) 0x8015).reg 0 = 0xFB ∧
    (ran (((ready.setReg 0 5).setReg 1 0xA).setReg 0xF 1) 0x8015).reg 0xF = 0 ∧
    (ran ((ready.setReg 0 0xA).setReg 1 5) 0x8015).reg 0xF = 1 := by decide
/-- T41-17: `Y = F` reads the old VF. -/
theorem test_subReg_vf : (ran ((ready.setReg 0 0x10).setReg 0xF 1) 0x80F5).reg 0 = 0x0F ∧
    (ran ((ready.setReg 0 0x10).setReg 0xF 1) 0x80F5).reg 0xF = 1 := by decide
/-- T41-18: shift in place; T41-14. -/
theorem test_shr : (ran (((ready.setReg 1 4).setReg 2 0xFF).setReg 0xF 1) 0x8126).reg 1 = 2 ∧
    (ran (((ready.setReg 1 4).setReg 2 0xFF).setReg 0xF 1) 0x8126).reg 0xF = 0 ∧
    (ran (ready.setReg 0xF 3) 0x8F16).reg 0xF = 1 := by decide
/-- T41-10. -/
theorem test_subn : (ran ((ready.setReg 0 5).setReg 1 0xA) 0x8017).reg 0 = 5 ∧
    (ran ((ready.setReg 0 5).setReg 1 0xA) 0x8017).reg 0xF = 1 ∧
    (ran ((ready.setReg 0 0xA).setReg 1 5) 0x8017).reg 0 = 0xFB := by decide
/-- T41-19, T41-16. -/
theorem test_shl : (ran (ready.setReg 1 0xFF) 0x812E).reg 1 = 0xFE ∧ (ran (ready.setReg 1 0xFF) 0x812E).reg 0xF = 1 ∧
    (ran (ready.setReg 0xF 0x81) 0x8F1E).reg 0xF = 2 := by decide
/-- T41-21, T41-22, T41-23, for the draw B7. -/
theorem test_rnd : (randomInto 0xB7 3 0x0F ready).reg 3 = 7 ∧ (randomInto 0xB7 3 0 (ready.setReg 3 0x99)).reg 3 = 0 ∧
    (randomInto 0xB7 0xF 0xFF ready).reg 0xF = 0xB7 := by decide
/-- The Step of `C3 0F` runs and draws one byte. -/
theorem test_rnd_draws : (ran ready 0xC30F).pc = 0x202 ∧ (ran ready 0xC30F).draws = 1 := by
  exact ⟨rfl, rfl⟩

/-! ### Index register and memory -/

/-- T42-1. -/
theorem test_ldI : (ran ready 0xAFFF).i = 0xFFF := by decide
/-- T42-4. -/
theorem test_addI : (ran ((ready.setIndex 0xFFF).setReg 0 0xFF) 0xF01E).i = 0x0FE ∧
    (ran ((ready.setIndex 0xFFF).setReg 0 0xFF) 0xF01E).reg 0xF = 1 := by decide
/-- T42-5: the old VF is the addend. -/
theorem test_addI_vf : (ran ((ready.setIndex 0x10).setReg 0xF 2) 0xFF1E).i = 0x12 ∧
    (ran ((ready.setIndex 0x10).setReg 0xF 2) 0xFF1E).reg 0xF = 0 := by decide
/-- T42-6, T42-8. -/
theorem test_ldF : (ran (ready.setReg 0 0x0F) 0xF029).i = 0x4B ∧ (ran (ready.setReg 0 0xFF) 0xF029).i = 0x4FB ∧
    (ran (ready.setReg 0 0xFF) 0xF029).result = ⟨.ok, .none, .fontDigitRange⟩ := by decide
/-- T42-10. -/
theorem test_ldB : (ran ((ready.setIndex 0xFFD).setReg 0 0xEA) 0xF033).read 0xFFD = 2 ∧
    (ran ((ready.setIndex 0xFFD).setReg 0 0xEA) 0xF033).read 0xFFE = 3 ∧
    (ran ((ready.setIndex 0xFFD).setReg 0 0xEA) 0xF033).read 0xFFF = 4 := by decide
/-- T42-11. -/
theorem test_ldB_oob : (ran ((ready.setIndex 0xFFE).setReg 0 0xEA) 0xF033).result = ⟨.halted, .memWriteOob, .none⟩ ∧
    (ran ((ready.setIndex 0xFFE).setReg 0 0xEA) 0xF033).read 0xFFE = 0 ∧
    (ran ((ready.setIndex 0xFFE).setReg 0 0xEA) 0xF033).pc = 0x200 := by decide
/-- T42-14. -/
theorem test_storeRegs : (ran (((ready.setIndex 0x400).setReg 0 0x77).setReg 1 0x88) 0xF055).read 0x400 = 0x77 ∧
    (ran (((ready.setIndex 0x400).setReg 0 0x77).setReg 1 0x88) 0xF055).read 0x401 = 0 ∧
    (ran (((ready.setIndex 0x400).setReg 0 0x77).setReg 1 0x88) 0xF155).read 0x401 = 0x88 := by decide
/-- T42-12, T42-13: the last byte that fits, and the first that does not. -/
theorem test_storeRegs_edge : (ran ((ready.setIndex 0xFF0).setReg 0xF 0xAF) 0xFF55).read 0xFFF = 0xAF ∧
    (ran ((ready.setIndex 0xFF0).setReg 0xF 0xAF) 0xFF55).i = 0xFF0 ∧
    (ran ((ready.setIndex 0xFF1).setReg 0xF 0xAF) 0xFF55).result = ⟨.halted, .memWriteOob, .none⟩ := by decide
/-- T42-15. -/
theorem test_loadRegs : (ran (((ready.write 0xFFF 0x5A).setIndex 0xFFF).setReg 1 0x22) 0xF065).reg 0 = 0x5A ∧
    (ran (((ready.write 0xFFF 0x5A).setIndex 0xFFF).setReg 1 0x22) 0xF065).reg 1 = 0x22 := by decide
theorem test_loadRegs_oob :
    (ran (((ready.write 0xFFF 0x5A).setIndex 0xFFF).setReg 0 0x11) 0xF165).result = ⟨.halted, .memReadOob, .none⟩ ∧
    (ran (((ready.write 0xFFF 0x5A).setIndex 0xFFF).setReg 0 0x11) 0xF165).reg 0 = 0x11 := by decide

/-! ### Display -/

/-- T43-1. -/
theorem test_cls :
    (ran { ready.setReg 0xF 1 with disp := (ready.disp.set 0 1).set 31 (BitVec.allOnes 64) } 0x00E0).disp =
      Vector.replicate 32 0 ∧
    (ran { ready.setReg 0xF 1 with disp := (ready.disp.set 0 1).set 31 (BitVec.allOnes 64) } 0x00E0).reg 0xF = 1 := by
  decide
/-- T43-15. -/
theorem test_pattern : spritePattern 0 0xFF = 0xFF00000000000000 ∧ spritePattern 56 0xFF = 0xFF ∧
    spritePattern 57 0xFF = 0x7F ∧ spritePattern 60 0xA5 = 0xA ∧ spritePattern 63 0x80 = 1 ∧ spritePattern 63 0x7F = 0 ∧
    spritePattern 10 0x81 = 0x0020400000000000 := by decide
/-- T43-10. -/
theorem test_drw_collision :
    (ran { (ready.write 0x300 0xC0).setIndex 0x300 with disp := ready.disp.set 0 0x8000000000000000 } 0xD011).disp[0] =
      0x4000000000000000 ∧
    (ran { (ready.write 0x300 0xC0).setIndex 0x300 with disp := ready.disp.set 0 0x8000000000000000 } 0xD011).reg 0xF =
      1 := by decide
/-- T43-8: only the visible rows are read. -/
theorem test_drw_edge :
    (ran (((ready.write 0xFFF 0xFF).setIndex 0xFFF).setReg 0xF 7) 0xD012).result = ⟨.halted, .memReadOob, .none⟩ ∧
    (ran (((ready.write 0xFFF 0xFF).setIndex 0xFFF).setReg 1 0x1F) 0xD012).disp[31] = 0xFF00000000000000 := by decide

/-! ### Keypad and timers -/

/-- T44-1, T44-2. -/
theorem test_skp : (ran { ready.setReg 2 5 with pc := 0x210, key := ready.key.set 5 true } 0xE29E).pc = 0x214 ∧
    (ran { ready.setReg 2 0x10 with pc := 0x210, key := ready.key.set 0 true } 0xE29E).pc = 0x212 ∧
    (ran { ready.setReg 2 0x10 with key := ready.key.set 0 true } 0xE29E).result = ⟨.ok, .none, .keyIndexRange⟩ := by
  decide
/-- T44-3, T44-4. -/
theorem test_sknp : (ran { ready.setReg 2 5 with pc := 0x210, key := ready.key.set 5 true } 0xE2A1).pc = 0x212 ∧
    (ran { ready.setReg 2 0x20 with pc := 0x210, key := Vector.replicate 16 true } 0xE2A1).pc = 0x214 ∧
    (ran { ready.setReg 2 0x20 with key := Vector.replicate 16 true } 0xE2A1).result =
      ⟨.ok, .none, .keyIndexRange⟩ := by decide
/-- T44-5. -/
theorem test_ldVxK : (ran { ready with key := (ready.key.set 9 true).set 3 true } 0xF30A).reg 3 = 3 ∧
    (ran { ready with key := (ready.key.set 9 true).set 3 true } 0xF30A).pc = 0x202 := by decide
/-- T44-6. -/
theorem test_ldVxK_waits : (ran (ready.setReg 3 0xEE) 0xF30A).result = ⟨.waiting, .none, .none⟩ ∧
    (ran (ready.setReg 3 0xEE) 0xF30A).pc = 0x200 ∧ (ran (ready.setReg 3 0xEE) 0xF30A).reg 3 = 0xEE := by decide
/-- T44-8. -/
theorem test_ldVxDt : (ran (ready.setDelay 0x2A) 0xF307).reg 3 = 0x2A ∧ (ran (ready.setDelay 0x2A) 0xF307).dt = 0x2A := by
  decide
/-- T44-9. -/
theorem test_ldDtVx : (ran (ready.setReg 0 7) 0xF015).dt = 7 ∧ (ran (ready.setReg 0 7) 0xF015).st = 0 := by decide
/-- T44-10. -/
theorem test_ldStVx : (ran (ready.setReg 4 0x1E) 0xF418).st = 0x1E ∧ (ran (ready.setReg 4 0x1E) 0xF418).dt = 0 := by decide

/-! ### The other agents, with a period of 1000 -/

/-- T60-1, T60-2. -/
theorem test_tick : left (((State.resetAt 100).setDelay 5).tickWith 1000 1099) = (State.resetAt 100).setDelay 5 ∧
    (left (((State.resetAt 100).setDelay 5).tickWith 1000 1100)).dt = 4 ∧
    (left (((State.resetAt 100).setDelay 5).tickWith 1000 1100)).st = 0 ∧
    (left (((State.resetAt 100).setDelay 5).tickWith 1000 1100)).timerRef = 1100 := by decide
/-- T60-4: one decrement however late. T60-7: a machine that is not loaded counts down too. -/
theorem test_tick_late : (left (((State.resetAt 1100).setDelay 4).tickWith 1000 12100)).dt = 3 ∧
    (left (((State.resetAt 1100).setDelay 4).tickWith 1000 12100)).loaded = false := by decide
/-- T60-8. -/
theorem test_keyEvent : (State.reset.keyEvent 4 true).key[4] = true ∧
    ((State.reset.keyEvent 4 true).keyEvent 4 false) = State.reset := by decide
/-- T70-1, and the first and last glyph byte of R31. -/
theorem test_reset : State.reset.pc = 0x200 ∧ State.reset.read 0 = 0xF0 ∧ State.reset.read 0x4F = 0x80 ∧
    State.reset.read 0x50 = 0 ∧ State.reset.loaded = false ∧ State.reset.mem.wf = true := by decide
/-- T70-4: Install relaunches a halted machine. -/
theorem test_install_relaunches : ((ran ready 0x00EE).install [0x60, 0x05]).loaded = true ∧
    ((ran ready 0x00EE).install [0x60, 0x05]).faultCause = .none ∧
    ((ran ready 0x00EE).install [0x60, 0x05]).read 0x200 = 0x60 := by decide

/-! ### A witness for the hypotheses of every statement that has some, at the edges of its clauses -/

theorem witness_EncodeOfDecode : decodeWord 0xFFFF = .error .groupF ∧ decodeWord 0xDFFF = .ok (.drw 0xF 0xF 0xF) := by
  decide

theorem witness_StepRunsDecodedInstruction :
    (({ ready with pc := 0xFFE } : State).withFetchWord 16 0x602A).loaded = true ∧
    (({ ready with pc := 0xFFE } : State).withFetchWord 16 0x602A).pc.toNat + 1 < 4096 ∧
    decodeWord (wordOfBytes ((({ ready with pc := 0xFFE } : State).withFetchWord 16 0x602A).read 0xFFE)
      ((({ ready with pc := 0xFFE } : State).withFetchWord 16 0x602A).read 0xFFF)) = .ok (.ldImm 0 0x2A) := by decide

theorem witness_UnloadedStepRefused : State.reset.loaded = false := rfl

theorem witness_FetchOutOfBoundsHalts : ({ ready with pc := 0xFFF } : State).loaded = true ∧
    ({ ready with pc := 0xFFF } : State).pc.toNat + 1 ≥ 4096 ∧ ({ ready with pc := 0xFFFF } : State).pc.toNat + 1 ≥ 4096 := by
  decide

theorem witness_UnrecognizedWordOnlyAdvances : ready.loaded = true ∧ ready.pc.toNat + 1 < 4096 ∧
    decodeWord (wordOfBytes (ready.read ready.pc.toNat) (ready.read (ready.pc.toNat + 1))) = .error .group0 := by decide

theorem witness_PlacedWordRuns : ready.mem.wf = true ∧ ({ ready with pc := 0xFFFF } : State).mem.wf = true ∧
    decodeTableWord 16 0x1FFF = some (.jp 0xFFF) := by decide

theorem witness_FatalHaltsArePrecise : ∃ t, step (ready.withFetchWord 16 0x00EE) = .next t ∧ t.result.status = .halted :=
  ⟨_, rfl, by decide⟩

theorem witness_HaltCausesAreExactly :
    (ready.loaded = true ∧ ∃ t, step ready = .next t ∧ t.result.cause = .none) ∧
    (({ ready with pc := 0xFFF } : State).loaded = true ∧
      ∃ t, step { ready with pc := 0xFFF } = .next t ∧ t.result.cause = .fetchOob) :=
  ⟨⟨rfl, _, rfl, by decide⟩, rfl, _, rfl, by decide⟩

/-- Each row of R171 at its edge: the last state that does not halt and the first that does. -/
theorem witness_haltCause :
    haltCause { ready with sp := 14 } (.call 0) = .none ∧ haltCause { ready with sp := 15 } (.call 0) = .stackOverflow ∧
    haltCause { ready with sp := 1 } .ret = .none ∧ haltCause ready .ret = .stackUnderflow ∧
    haltCause (ready.setIndex 0xFFD) (.ldB 0) = .none ∧ haltCause (ready.setIndex 0xFFE) (.ldB 0) = .memWriteOob ∧
    haltCause (ready.setIndex 0xFF0) (.storeRegs 15) = .none ∧
    haltCause (ready.setIndex 0xFF1) (.storeRegs 15) = .memWriteOob ∧
    haltCause (ready.setIndex 0xFFF) (.loadRegs 0) = .none ∧ haltCause (ready.setIndex 0xFFF) (.loadRegs 1) = .memReadOob ∧
    haltCause (ready.setIndex 0xFFF) (.drw 0 1 1) = .none ∧ haltCause (ready.setIndex 0xFFF) (.drw 0 1 2) = .memReadOob ∧
    haltCause (ready.setIndex 0xFFFF) (.drw 0 1 0) = .none ∧
    haltCause ((ready.setIndex 0xFFF).setReg 1 31) (.drw 0 1 15) = .none := by decide

theorem witness_AdvisoriesAreExactly : ∃ t, step ready = .next t ∧ t.result.advisory = .unknownOpcode :=
  ⟨_, rfl, by decide⟩

theorem witness_HaltedMachineStaysHalted : State.reset.loaded = false ∧
    (∀ op ∈ [.step, .tick 0, .keyEvent 4 true, .install [], .displaySnapshot, .step], relaunches op = false) ∧
    ∃ t, operateAll [.step, .tick 0, .keyEvent 4 true, .install [], .displaySnapshot, .step] State.reset = .next t := by
  refine ⟨rfl, by decide, ?_⟩
  by_cases h : 0 - 0 ≥ Config.tickPeriod
  · exact ⟨_, by simp only [operateAll, operate, State.tick, State.tickWith, step, State.reset, State.resetAt,
      State.refuseStep, Nat.lt_irrefl, if_false, if_pos h, Bool.false_eq_true]; rfl⟩
  · exact ⟨_, by simp only [operateAll, operate, State.tick, State.tickWith, step, State.reset, State.resetAt,
      State.refuseStep, Nat.lt_irrefl, if_false, if_neg h, Bool.false_eq_true]; rfl⟩

theorem witness_StepKeepsInvariant : Inv ready ∧ ∃ t, step ready = .next t :=
  ⟨⟨by decide, by decide, by decide, by decide, by decide, by decide⟩, _, rfl⟩

theorem witness_OperationsKeepInvariant : Inv State.reset ∧
    ∃ t, operateAll [.install [0x00, 0xEE], .step, .keyEvent 0 true, .step, .reset 5, .step] State.reset = .next t :=
  ⟨⟨by decide, by decide, by decide, by decide, by decide, by decide⟩, _, rfl⟩

theorem witness_WritersOfEachPiece : (∃ t, exec (.addI 0) ready = .next t) ∧ (∃ t, exec (.drw 0 0 1) ready = .next t) ∧
    (∃ t, exec .ret ready = .next t ∧ t.loaded ≠ ready.loaded) ∧
    (State.reset.mem.wf = true ∧ ∃ t, operate (.install [1]) State.reset = .next t ∧ t.loaded ≠ State.reset.loaded) ∧
    (∃ t, operate (.keyEvent 0 true) State.reset = .next t) ∧ (∃ t, operate .displaySnapshot State.reset = .next t) :=
  ⟨⟨_, rfl⟩, ⟨_, rfl⟩, ⟨_, rfl, by decide⟩, ⟨rfl, _, rfl, by decide⟩, ⟨_, rfl⟩, ⟨_, rfl⟩⟩

theorem witness_FlagRegisterWriters :
    (∃ t, exec (.shr 0 0) (ready.setReg 0 1) = .next t ∧ t.reg vf ≠ (ready.setReg 0 1).reg vf ∧ t.result.status = .ok) ∧
    writesFlag (.shr 0 0) = true ∧ destination (.shr 0 0) ≠ some vf ∧
    (∃ t, exec (.ldImm vf 9) ready = .next t ∧ t.reg vf ≠ ready.reg vf) :=
  ⟨⟨_, rfl, by decide, by decide⟩, by decide, by decide, ⟨_, rfl, by decide⟩⟩

theorem witness_CallPushesCallSite : ready.sp.val < 15 ∧ ({ ready with sp := 14 } : State).sp.val < 15 ∧
    ({ ready with sp := 15 } : State).sp.val = 15 := by decide

theorem witness_ReturnPopsCallSite : ({ ready with sp := 1 } : State).sp.val ≠ 0 ∧
    ({ ready with sp := 15 } : State).sp.val ≠ 0 ∧ ready.sp.val = 0 := by decide

theorem witness_CallThenReturn : ({ ready with sp := 14 } : State).sp.val < 15 ∧
    ∃ t, exec (.call 0xFFF) { ready with sp := 14 } = .next t ∧
      ({ t with pc := 0x400 } : State).sp = t.sp ∧ ({ t with pc := 0x400 } : State).stack = t.stack :=
  ⟨by decide, _, rfl, rfl, rfl⟩

theorem witness_ShiftsByOne : (0x81 : Byte) =
    if Config.shiftUsesVY then (ready.setReg 2 0x81).reg 3 else (ready.setReg 2 0x81).reg 2 := by decide

theorem witness_ResultWinsOverFlag : (∃ t, exec (.addReg vf 1) (ready.setReg vf 0xFF) = .next t) ∧
    (∃ t, exec (.subReg vf 1) ready = .next t) ∧ (∃ t, exec (.subn vf 1) ready = .next t) ∧
    (∃ t, exec (.shr vf 1) (ready.setReg vf 3) = .next t) ∧ (∃ t, exec (.shl vf 1) (ready.setReg vf 0x81) = .next t) ∧
    (∃ t, exec (.addReg 0 vf) ready = .next t) ∧ (∃ t, exec (.subReg 0 vf) ready = .next t) ∧
    (∃ t, exec (.subn 0 vf) ready = .next t) ∧ (∃ t, exec (.addReg 3 3) (ready.setReg 3 0x90) = .next t) ∧
    (∃ t, exec (.subReg 3 3) ready = .next t) :=
  ⟨⟨_, rfl⟩, ⟨_, rfl⟩, ⟨_, rfl⟩, ⟨_, rfl⟩, ⟨_, rfl⟩, ⟨_, rfl⟩, ⟨_, rfl⟩, ⟨_, rfl⟩, ⟨_, rfl⟩, ⟨_, rfl⟩⟩

theorem witness_StoreDecimalDigits : ready.mem.wf = true ∧ (ready.setIndex 0xFFD).i.toNat + 2 < 4096 ∧
    (ready.setIndex 0xFFE).i.toNat + 2 ≥ 4096 ∧ (ready.setIndex 0xFFFF).i.toNat + 2 ≥ 4096 := by decide

theorem witness_StoreRegisters : ready.mem.wf = true ∧ (ready.setIndex 0xFF0).i.toNat + (15 : Nibble).toNat < 4096 ∧
    (ready.setIndex 0xFF1).i.toNat + (15 : Nibble).toNat ≥ 4096 := by decide

theorem witness_LoadRegisters : (ready.setIndex 0xFFF).i.toNat + (0 : Nibble).toNat < 4096 ∧
    (ready.setIndex 0xFFF).i.toNat + (1 : Nibble).toNat ≥ 4096 := by decide

theorem witness_StoreThenLoadRestores : (ready.setIndex 0xFF0).mem.wf = true ∧
    ∃ t, exec (.storeRegs 15) (ready.setIndex 0xFF0) = .next t ∧ t.result.status = .ok ∧
      (State.setReg t 3 9).mem = t.mem ∧ (State.setReg t 3 9).i = t.i :=
  ⟨by decide, _, rfl, by decide, rfl, rfl⟩

theorem witness_StoreSeenByNextFetch : (ready.setIndex 0x204).mem.wf = true ∧
    ∃ t, exec (.storeRegs 1) (ready.setIndex 0x204) = .next t ∧ t.result.status = .ok ∧
      ({ t with pc := 0x204 } : State).mem = t.mem ∧ (0 : Nibble).toNat + 1 ≤ (1 : Nibble).toNat ∧
      ({ t with pc := 0x204 } : State).pc.toNat = (ready.setIndex 0x204).i.toNat + (0 : Nibble).toNat :=
  ⟨by decide, _, rfl, by decide, rfl, by decide, by decide⟩

/-- No row at all; the last sprite that can be read; the first that cannot; one cut off at the bottom. -/
theorem witness_DrawXorsVisibleRows :
    (0 = (ready.reg 0).toNat % 64 ∧ 0 = (ready.reg 0).toNat % 32 ∧ 0 = min (0 : Nibble).toNat (32 - 0)) ∧
    (15 = min (15 : Nibble).toNat (32 - 0) ∧ (ready.setIndex 0xFF1).i.toNat + 15 - 1 < 4096 ∧
      (ready.setIndex 0xFF2).i.toNat + 15 - 1 ≥ 4096) ∧
    (31 = ((ready.setReg 1 0xFF).reg 1).toNat % 32 ∧ 1 = min (15 : Nibble).toNat (32 - 31)) := by decide

theorem witness_DrawPixelByPixel : (∃ t, exec (.drw 0 1 15) ((ready.setReg 0 63).setReg 1 31) = .next t ∧
    t.result.status = .ok) ∧ (63 : Nat) < 64 ∧ (31 : Nat) < 32 :=
  ⟨⟨_, rfl, by decide⟩, by decide, by decide⟩

theorem witness_DrawTwiceErases : (0 : Nibble) ≠ vf ∧ (1 : Nibble) ≠ vf ∧ (∃ t, exec (.drw 0 1 5) ready = .next t ∧
    t.result.status = .ok ∧ t.disp ≠ ready.disp) ∧ ∀ q : Fin 32, ready.disp[q] = 0 :=
  ⟨by decide, by decide, ⟨_, rfl, by decide, by decide⟩, by decide⟩

theorem witness_SkipOnKey :
    (true = if h : (((ready.setReg 2 15).keyEvent 15 true).reg 2).toNat < 16
      then ((ready.setReg 2 15).keyEvent 15 true).key[(((ready.setReg 2 15).keyEvent 15 true).reg 2).toNat] else false) ∧
    (Advisory.none = if (((ready.setReg 2 15).keyEvent 15 true).reg 2).toNat ≥ 16 then .keyIndexRange else .none) ∧
    (false = if h : (((ready.setReg 2 16).keyEvent 0 true).reg 2).toNat < 16
      then ((ready.setReg 2 16).keyEvent 0 true).key[(((ready.setReg 2 16).keyEvent 0 true).reg 2).toNat] else false) ∧
    (Advisory.keyIndexRange =
      if (((ready.setReg 2 16).keyEvent 0 true).reg 2).toNat ≥ 16 then .keyIndexRange else .none) := by decide

theorem witness_WaitForKey : (ready.keyEvent 15 true).key[(15 : Fin 16)] = true ∧
    (∀ j : Fin 16, j < 15 → (ready.keyEvent 15 true).key[j] = false) ∧ (∀ k : Fin 16, ready.key[k] = false) := by decide

theorem witness_TickCountsDown : (State.resetAt 100).timerRef ≤ 100 ∧ (1000 : Nat) ≤ 1100 - (State.resetAt 100).timerRef ∧
    1099 - (State.resetAt 100).timerRef < 1000 := by decide

theorem witness_InstallWritesImage : ready.mem.wf = true ∧
    (1 ≤ ([0x60] : List Byte).length ∧ ([0x60] : List Byte).length ≤ 3584) ∧
    (1 ≤ (List.replicate 3584 (0xAB : Byte)).length ∧ (List.replicate 3584 (0xAB : Byte)).length ≤ 3584) ∧
    ([] : List Byte).length < 1 ∧ (List.replicate 3585 (0xAB : Byte)).length > 3584 := by
  rw [List.length_replicate, List.length_replicate]; decide

theorem witness_LaunchState : 1 ≤ ([0x60] : List Byte).length ∧ ([0x60] : List Byte).length ≤ 3584 ∧
    (∀ op ∈ [.keyEvent 7 true], betweenInstallAndStep op = true) ∧
    ∃ t, operateAll (.reset 0 :: .install [0x60] :: [.keyEvent 7 true]) ready = .next t :=
  ⟨by decide, by decide, by decide, _, rfl⟩

end Sys2Proof.Tests
end

/-! PROOFS. What Reset leaves (`10_state.md` R30), and who may write each piece of the state (`10_state.md` R32). -/

namespace Sys2Proof.Machine

open Sys2Proof.Safety

/-! ### What Reset leaves (`10_state.md` R30, `70_reset_and_hazards.md` R200) -/

@[simp] theorem State.reg_resetOperation (s : State) (now0 : Nat) (r : Nibble) :
    (s.resetOperation now0).reg r = 0 := by
  simp [State.reg, State.resetOperation, State.resetAt]

/-- After Reset no byte is listed, so every address holds its reset content (`70_reset_and_hazards.md` R203). -/
theorem State.read_resetOperation (s : State) (now0 a : Nat) :
    (s.resetOperation now0).read a = Memory.unlisted a := rfl

theorem Memory.unlisted_of_lt (a : Nat) (ha : a < 0x50) : Memory.unlisted a = Config.fontTable.getD a 0 :=
  if_pos ⟨Nat.zero_le a, ha⟩

theorem Memory.unlisted_of_ge (a : Nat) (ha : 0x50 ≤ a) : Memory.unlisted a = 0 :=
  if_neg fun h => Nat.not_lt.2 ha h.2

/-- Settles O1: every piece but the registers and memory is the value written in `State.resetAt`; memory lists
nothing. -/
theorem resetLeavesTableValues : Obligations.ResetLeavesTableValues := by
  intro s now0
  refine ⟨s.resetOperation now0, rfl, s.reg_resetOperation now0, rfl, rfl, rfl, ?stack, rfl, rfl, ?key, ?disp, rfl,
    rfl, rfl, ?font, ?rest⟩
  case stack | key | disp => simp [State.resetOperation, State.resetAt]
  case font => exact fun a ha => (s.read_resetOperation now0 a).trans (Memory.unlisted_of_lt a ha)
  case rest => exact fun a ha _ => (s.read_resetOperation now0 a).trans (Memory.unlisted_of_ge a ha)

/-! ### Frames: what each named operation leaves unchanged -/

theorem keepsAllBut_refl (ps : List Part) (s : State) : KeepsAllBut ps s s :=
  fun p _ => by cases p <;> simp [Keeps]

/-- Of two updates in a row, what neither writes is kept. -/
theorem keepsAllBut_trans {ps qs : List Part} {s t u : State} (h : KeepsAllBut ps s t) (h' : KeepsAllBut qs t u) :
    KeepsAllBut (ps ++ qs) s u := by
  intro p hp
  obtain ⟨hps, hqs⟩ : p ∉ ps ∧ p ∉ qs := by simpa using hp
  have hst := h p hps
  have htu := h' p hqs
  cases p <;> simp_all [Keeps]

theorem State.setMem_frame (s : State) (m : Memory) : KeepsAllBut [.mem] s { s with mem := m } :=
  fun p hp => by cases p <;> simp_all [Keeps, State.reg]

theorem State.setRegs_frame (s : State) (v : Vector Byte 16) : KeepsAllBut [.v] s { s with v := v } :=
  fun p hp => by cases p <;> simp_all [Keeps, State.read]

theorem State.writeBytes_frame (s : State) (a : Nat) (bs : List Byte) : KeepsAllBut [.mem] s (s.writeBytes a bs) :=
  s.writeBytes_eq a bs ▸ s.setMem_frame _

theorem State.storeRegsFrom_frame (s : State) (base n : Nat) : KeepsAllBut [.mem] s (s.storeRegsFrom base n) :=
  s.storeRegsFrom_eq base n ▸ s.setMem_frame _

theorem State.loadRegsFrom_frame (s : State) (base n : Nat) : KeepsAllBut [.v] s (s.loadRegsFrom base n) :=
  s.loadRegsFrom_eq base n ▸ s.setRegs_frame _

theorem State.setIndex_frame (s : State) (w : Word) : KeepsAllBut [.i] s (s.setIndex w) :=
  fun p hp => by cases p <;> simp_all [Keeps]

theorem State.setDelay_frame (s : State) (b : Byte) : KeepsAllBut [.dt] s (s.setDelay b) :=
  fun p hp => by cases p <;> simp_all [Keeps]

theorem State.setSound_frame (s : State) (b : Byte) : KeepsAllBut [.st] s (s.setSound b) :=
  fun p hp => by cases p <;> simp_all [Keeps]

theorem State.countDraw_frame (s : State) : KeepsAllBut [.draws] s s.countDraw :=
  fun p hp => by cases p <;> simp_all [Keeps]

theorem State.setDisplay_frame (s : State) (d : Vector PixelRow 32) : KeepsAllBut [.disp] s (s.setDisplay d) :=
  fun p hp => by cases p <;> simp_all [Keeps]

theorem State.push_frame (s : State) (w : Word) : KeepsAllBut [.sp, .stack] s (s.push w) :=
  fun p hp => by cases p <;> simp_all [Keeps]

theorem State.pop_frame (s : State) : KeepsAllBut [.sp] s s.pop :=
  fun p hp => by cases p <;> simp_all [Keeps]

theorem State.nextAdvised_frame (s : State) (a : Advisory) : KeepsAllBut [.pc, .result] s (s.nextAdvised a) :=
  fun p hp => by cases p <;> simp_all [Keeps]

theorem State.wait_frame (s : State) : KeepsAllBut [.result] s s.wait :=
  fun p hp => by cases p <;> simp_all [Keeps]

theorem State.keyEvent_frame (s : State) (k : Nibble) (isPressed : Bool) :
    KeepsAllBut [.key] s (s.keyEvent k isPressed) :=
  fun p hp => by cases p <;> simp_all [Keeps]

theorem State.setReg_countDraw_frame (s : State) (x : Nibble) (b : Byte) :
    KeepsAllBut [.v, .draws] s (s.countDraw.setReg x b) :=
  keepsAllBut_mono (keepsAllBut_trans s.countDraw_frame (s.countDraw.setReg_frame x b).2) (by decide)

theorem State.setIndex_setReg_frame (s : State) (x : Nibble) (b : Byte) (w : Word) :
    KeepsAllBut [.i, .v] s ((s.setReg x b).setIndex w) :=
  keepsAllBut_mono (keepsAllBut_trans (s.setReg_frame x b).2 (State.setIndex_frame _ w)) (by decide)

/-! ### Everything an instruction can do: complete, or halt -/

/-- What an instruction may write when it completes: its column of `10_state.md` R32 without the two pieces that only a
fatal halt writes. -/
def completionWrites (i : Instr) : List Part := (executorWrites i).filter fun p => p ≠ .loaded ∧ p ≠ .faultCause

/-- The instruction ended without a fatal halt and wrote only its own pieces. -/
def Completes (i : Instr) (s t : State) : Prop := t.result.cause = .none ∧ KeepsAllBut (completionWrites i) s t

/-- The fatal halt of the cause `c`, or `u` where there is none. -/
def State.haltOr (s : State) (c : FaultCause) (u : State) : State := if c = .none then u else s.fatalHalt c

/-- An update, then an ending that writes `pc` and the result: it completes when the update is the instruction's. -/
theorem completes_of_update {i : Instr} {ps : List Part} {s u t : State} (hu : KeepsAllBut ps s u)
    (hi : completionWrites i = .pc :: .result :: ps) (hend : KeepsAllBut [.pc, .result] u t)
    (ht : t.result.cause = .none) : Completes i s t := by
  refine ⟨ht, hi ▸ keepsAllBut_mono (keepsAllBut_trans hu hend) fun p hp => ?_⟩
  rcases List.mem_append.1 hp with hp | hp
  · exact List.mem_append_right [.pc, .result] hp
  · exact List.mem_append_left ps hp

theorem completes_nextAdvised {i : Instr} {ps : List Part} {s u : State} (a : Advisory) (hu : KeepsAllBut ps s u)
    (hi : completionWrites i = .pc :: .result :: ps) : Completes i s (u.nextAdvised a) :=
  completes_of_update hu hi (u.nextAdvised_frame a) rfl

theorem completes_jumpTo {i : Instr} {ps : List Part} {s u : State} (w : Word) (hu : KeepsAllBut ps s u)
    (hi : completionWrites i = .pc :: .result :: ps) : Completes i s (u.jumpTo w) :=
  completes_of_update hu hi (u.jumpTo_frame w) rfl

/-- A guarded update answers the halt's state exactly under the condition that the guard excludes. -/
theorem next_haltOr_of_guard {guard : Bool} {oob : Prop} [Decidable oob] {c : FaultCause} (s u : State)
    (hc : c ≠ .none) (hg : guard = true ↔ ¬ oob) :
    (if guard then .next u else .next (s.fatalHalt c) : Answer) = .next (s.haltOr (if oob then c else .none) u) := by
  by_cases ho : oob <;> simp [State.haltOr, hg, ho, hc]

theorem validAddress_iff_not_ge (a : Nat) : validAddress a = true ↔ ¬ a ≥ 4096 := by simp

/-- The sprite's highest byte is tested only where some row is visible (`43_display.md` R141). -/
theorem spriteValid_iff (s : State) (rows : Nat) :
    spriteValid s rows = true ↔ ¬ (0 < rows ∧ s.i.toNat + (rows - 1) ≥ 4096) := by
  simp only [spriteValid, effectiveAddress_eq, Bool.or_eq_true, beq_iff_eq, validAddress_iff]; omega

/-- This hardware writes `I` back as it was (`42_index_memory.md` R124). -/
theorem State.storeRegsFrom_setIndex (s : State) (base n : Nat) :
    (s.storeRegsFrom base n).setIndex s.i = s.storeRegsFrom base n := by
  rw [s.storeRegsFrom_eq base n]; rfl

/-- This hardware writes `I` back as it was (`42_index_memory.md` R125). -/
theorem State.loadRegsFrom_setIndex (s : State) (base n : Nat) :
    (s.loadRegsFrom base n).setIndex s.i = s.loadRegsFrom base n := by
  rw [s.loadRegsFrom_eq base n]; rfl

/-! The instructions that can halt, each with its condition of `60_exceptions.md` R171. -/

theorem exec_ret (s : State) :
    exec .ret s = .next (s.haltOr (haltCause s .ret) (s.pop.jumpTo (s.stackTop + 2))) := by
  have hz : s.sp = 0 ↔ s.stackEmpty = true := by rw [s.stackEmpty_iff]; exact Fin.ext_iff
  by_cases h : s.stackEmpty = true <;> simp [exec, execRet, haltCause, State.haltOr, hz, h]

theorem exec_call (s : State) (nnn : Addr12) :
    exec (.call nnn) s = .next (s.haltOr (haltCause s (.call nnn)) ((s.push s.pc).jumpTo (targetOf nnn))) := by
  have hf : s.sp = 15 ↔ s.stackFull = true := by rw [s.stackFull_iff]; exact Fin.ext_iff
  by_cases h : s.stackFull = true <;> simp [exec, execCall, haltCause, State.haltOr, hf, h]

theorem exec_ldB (s : State) (x : Nibble) :
    exec (.ldB x) s = .next (s.haltOr (haltCause s (.ldB x)) (s.writeBytes s.i.toNat
      [hundredsDigit (s.reg x), tensDigit (s.reg x), onesDigit (s.reg x)]).nextInstr) :=
  next_haltOr_of_guard s _ (by decide) (validAddress_iff_not_ge _)

theorem exec_storeRegs (s : State) (x : Nibble) :
    exec (.storeRegs x) s = .next (s.haltOr (haltCause s (.storeRegs x))
      (s.storeRegsFrom s.i.toNat (transferCount x)).nextInstr) := by
  rw [← s.storeRegsFrom_setIndex]
  exact next_haltOr_of_guard s _ (by decide) (validAddress_iff_not_ge _)

theorem exec_loadRegs (s : State) (x : Nibble) :
    exec (.loadRegs x) s = .next (s.haltOr (haltCause s (.loadRegs x))
      (s.loadRegsFrom s.i.toNat (transferCount x)).nextInstr) := by
  rw [← s.loadRegsFrom_setIndex]
  exact next_haltOr_of_guard s _ (by decide) (validAddress_iff_not_ge _)

/-- The state `DXYN` leaves when it completes: VF, then the display (`43_display.md` R141). -/
def State.drawSprite (s : State) (x y n : Nibble) : State :=
  let drawn := drawRows s (spriteColumn s x) (spriteTop s y) (visibleRows s y n)
  (s.setReg vf (flagByte drawn.2)).setDisplay drawn.1

theorem State.drawSprite_frame (s : State) (x y n : Nibble) : KeepsAllBut [.disp, .v] s (s.drawSprite x y n) :=
  keepsAllBut_mono (keepsAllBut_trans (s.setReg_frame _ _).2 (State.setDisplay_frame _ _)) (by decide)

theorem State.drawSprite_regs (s : State) (x y n : Nibble) : RegsKeptBut [vf] s (s.drawSprite x y n) :=
  (s.setReg_frame _ _).1

theorem exec_drw (s : State) (x y n : Nibble) :
    exec (.drw x y n) s = .next (s.haltOr (haltCause s (.drw x y n)) (s.drawSprite x y n).nextInstr) :=
  next_haltOr_of_guard s _ (by decide) (spriteValid_iff s _)

/-- An instruction completes, raising nothing, or is exactly the fatal halt of its row in `60_exceptions.md` R171. -/
def CompletesOrHalts (i : Instr) (s t : State) : Prop :=
  (haltCause s i = .none ∧ Completes i s t) ∨ (haltCause s i ≠ .none ∧ t = s.fatalHalt (haltCause s i))

theorem completesOrHalts_haltOr {i : Instr} {s u : State} (hu : Completes i s u) :
    CompletesOrHalts i s (s.haltOr (haltCause s i) u) := by
  by_cases hc : haltCause s i = .none
  · exact .inl ⟨hc, by rwa [State.haltOr, if_pos hc]⟩
  · exact .inr ⟨hc, if_neg hc⟩

/-- Everything an instruction can do. -/
theorem exec_cases (i : Instr) (s : State) : ∃ t, exec i s = .next t ∧ CompletesOrHalts i s t := by
  cases i with
  | ret =>
    have hpop : KeepsAllBut [.sp, .stack] s s.pop := keepsAllBut_mono s.pop_frame (by decide)
    exact ⟨_, exec_ret s, completesOrHalts_haltOr (completes_jumpTo _ hpop rfl)⟩
  | call nnn => exact ⟨_, exec_call s nnn, completesOrHalts_haltOr (completes_jumpTo _ (s.push_frame _) rfl)⟩
  | drw x y n =>
    exact ⟨_, exec_drw s x y n, completesOrHalts_haltOr (completes_nextAdvised _ (s.drawSprite_frame x y n) rfl)⟩
  | ldB x => exact ⟨_, exec_ldB s x, completesOrHalts_haltOr (completes_nextAdvised _ (s.writeBytes_frame _ _) rfl)⟩
  | storeRegs x =>
    exact ⟨_, exec_storeRegs s x, completesOrHalts_haltOr (completes_nextAdvised _ (s.storeRegsFrom_frame _ _) rfl)⟩
  | loadRegs x =>
    exact ⟨_, exec_loadRegs s x, completesOrHalts_haltOr (completes_nextAdvised _ (s.loadRegsFrom_frame _ _) rfl)⟩
  | jp | jpV0 => exact ⟨_, rfl, .inl ⟨rfl, rfl, s.jumpTo_frame _⟩⟩
  | seImm | sneImm | seReg | sneReg | skp | sknp => exact ⟨_, rfl, .inl ⟨rfl, rfl, s.skipIfAdvised_frame _ _⟩⟩
  | ldImm | addImm | ldReg | orReg | andReg | xorReg | ldVxDt =>
    exact ⟨_, rfl, .inl ⟨rfl, completes_nextAdvised _ (s.setReg_frame _ _).2 rfl⟩⟩
  | addReg | subReg | shr | subn | shl =>
    exact ⟨_, rfl, .inl ⟨rfl, completes_nextAdvised _ (s.setFlagThenReg_frame _ _ _).2 rfl⟩⟩
  | rnd => exact ⟨_, rfl, .inl ⟨rfl, completes_nextAdvised _ (s.setReg_countDraw_frame _ _) rfl⟩⟩
  | addI => exact ⟨_, rfl, .inl ⟨rfl, completes_nextAdvised _ (s.setIndex_setReg_frame _ _ _) rfl⟩⟩
  | cls => exact ⟨_, rfl, .inl ⟨rfl, completes_nextAdvised _ (s.setDisplay_frame _) rfl⟩⟩
  | ldI | ldF => exact ⟨_, rfl, .inl ⟨rfl, completes_nextAdvised _ (s.setIndex_frame _) rfl⟩⟩
  | ldDtVx => exact ⟨_, rfl, .inl ⟨rfl, completes_nextAdvised _ (s.setDelay_frame _) rfl⟩⟩
  | ldStVx => exact ⟨_, rfl, .inl ⟨rfl, completes_nextAdvised _ (s.setSound_frame _) rfl⟩⟩
  | ldVxK x =>
    simp only [exec, execLdVxK]
    cases leastPressedKey s with
    | some k => exact ⟨_, rfl, .inl ⟨rfl, completes_nextAdvised _ (s.setReg_frame _ _).2 rfl⟩⟩
    | none =>
      have hresult : ∀ p ∈ [Part.result], p ∈ completionWrites (.ldVxK x) := by simp [completionWrites, executorWrites]
      exact ⟨_, rfl, .inl ⟨rfl, rfl, keepsAllBut_mono s.wait_frame hresult⟩⟩

/-- The same, of a given next state. -/
theorem exec_completesOrHalts {i : Instr} {s t : State} (h : exec i s = .next t) : CompletesOrHalts i s t := by
  obtain ⟨t', ht', hcases⟩ := exec_cases i s
  cases ht'.symm.trans h
  exact hcases

/-! ### Who writes what (`10_state.md` R32) -/

/-- Only an instruction whose column names the pieces of a fatal halt can raise one. -/
theorem haltWrites_subset_executorWrites {i : Instr} {s : State} (h : haltCause s i ≠ .none) :
    ∀ p ∈ [Part.loaded, .faultCause, .result], p ∈ executorWrites i := by
  cases i <;> simp_all [haltCause, executorWrites]

theorem exec_frame {i : Instr} {s t : State} (h : exec i s = .next t) : KeepsAllBut (executorWrites i) s t := by
  rcases exec_completesOrHalts h with ⟨-, -, hframe⟩ | ⟨hc, rfl⟩
  · exact keepsAllBut_mono hframe fun p hp => (List.mem_filter.1 hp).1
  · obtain ⟨-, -, -, hframe⟩ := s.fatalHalt_halted (haltCause s i)
    exact keepsAllBut_mono hframe (haltWrites_subset_executorWrites hc)

/-- An instruction writes `loaded` or `fault_cause` only by a fatal halt, which clears `loaded`. -/
theorem exec_halted_of_loaded_or_faultCause_ne {i : Instr} {s t : State} (h : exec i s = .next t)
    (hne : t.loaded ≠ s.loaded ∨ t.faultCause ≠ s.faultCause) : t.result.status = .halted ∧ t.loaded = false := by
  rcases exec_completesOrHalts h with ⟨-, -, hframe⟩ | ⟨-, rfl⟩
  · have hloaded : t.loaded = s.loaded := hframe .loaded (by simp [completionWrites])
    have hcause : t.faultCause = s.faultCause := hframe .faultCause (by simp [completionWrites])
    exact absurd hne (by simp [hloaded, hcause])
  · exact ⟨rfl, rfl⟩

theorem exec_addI_regs {x : Nibble} {s t : State} (h : exec (.addI x) s = .next t) : RegsKeptBut [vf] s t := by
  cases h
  exact (s.setReg_frame vf _).1

theorem exec_drw_regs {x y n : Nibble} {s t : State} (h : exec (.drw x y n) s = .next t) : RegsKeptBut [vf] s t := by
  cases (exec_drw s x y n).symm.trans h
  unfold State.haltOr
  split
  · exact s.drawSprite_regs x y n
  · exact fun _ _ => rfl

/-- Everything Install can do (`70_reset_and_hazards.md` R204, R205). -/
theorem State.install_cases (s : State) (bytes : List Byte) :
    (bytes.length ≤ 3584 ∧
      s.install bytes = { s.writeBytes 0x200 bytes with loaded := true, faultCause := .none }) ∨
    s.install bytes = s := by
  by_cases ha : imageAccepted bytes = true
  · obtain ⟨-, hlen⟩ : 1 ≤ bytes.length ∧ bytes.length ≤ Config.progMaxLen := by simpa [imageAccepted] using ha
    exact .inl ⟨hlen, if_pos ha⟩
  · exact .inr (if_neg ha)

theorem State.launch_frame (s : State) :
    KeepsAllBut [.loaded, .faultCause] s { s with loaded := true, faultCause := .none } :=
  fun p hp => by cases p <;> simp_all [Keeps, State.reg, State.read]

theorem State.install_frame (s : State) (bytes : List Byte) :
    KeepsAllBut [.mem, .loaded, .faultCause] s (s.install bytes) := by
  rcases s.install_cases bytes with ⟨-, h⟩ | h <;> rw [h]
  · exact keepsAllBut_trans (s.writeBytes_frame _ _) (State.launch_frame _)
  · exact keepsAllBut_refl _ s

/-- Install writes no byte outside the image (`70_reset_and_hazards.md` R204). -/
theorem State.read_install_outside (s : State) (bytes : List Byte) (a : Nat) (hwf : s.mem.wf = true)
    (ha : a < 0x200 ∨ 0x200 + bytes.length ≤ a) : (s.install bytes).read a = s.read a := by
  rcases s.install_cases bytes with ⟨hlen, h⟩ | h <;> rw [h]
  calc (s.writeBytes 0x200 bytes).read a
      = if 0x200 ≤ a ∧ a < 0x200 + bytes.length then bytes.getD (a - 0x200) 0 else s.read a :=
        s.read_writeBytes 0x200 a bytes hwf (by simp only [Config.memSize]; omega)
    _ = s.read a := if_neg (by omega)

theorem State.tick_frame {s t : State} {now : Nat} (h : s.tick now = .next t) :
    KeepsAllBut [.dt, .st, .timerRef] s t := by
  rcases s.tickWith_cases Config.tickPeriod now with ⟨-, ht⟩ | ⟨-, -, ht⟩ | ⟨-, -, ht⟩ <;> cases ht.symm.trans h
  · exact fun p hp => by cases p <;> simp_all [Keeps, State.reg, State.read]
  · exact keepsAllBut_refl _ s

theorem operate_frame {op : Operation} {s t : State} (hstep : op ≠ .step) (hreset : ∀ now0, op ≠ .reset now0)
    (h : operate op s = .next t) : KeepsAllBut (agentWrites op) s t := by
  cases op with
  | reset now0 => exact absurd rfl (hreset now0)
  | step => exact absurd rfl hstep
  | tick now => exact State.tick_frame h
  | install bytes => cases h; exact s.install_frame bytes
  | keyEvent k isPressed => cases h; exact s.keyEvent_frame k isPressed
  | displaySnapshot => cases h; exact keepsAllBut_refl _ s

/-- The agents write `loaded` and `fault_cause` only as an accepted Install does (`10_state.md` R32). -/
theorem operate_keeps_or_launches {op : Operation} {s t : State} (hstep : op ≠ .step)
    (hreset : ∀ now0, op ≠ .reset now0) (h : operate op s = .next t) :
    (t.loaded = s.loaded ∧ t.faultCause = s.faultCause) ∨ (t.loaded = true ∧ t.faultCause = .none) := by
  have hframe := operate_frame hstep hreset h
  cases op with
  | install bytes =>
    cases h
    rcases s.install_cases bytes with ⟨-, hi⟩ | hi <;> rw [hi] <;> simp
  | _ => exact .inl ⟨hframe .loaded (by simp [agentWrites]), hframe .faultCause (by simp [agentWrites])⟩

/-- Settles O20, from everything an instruction can do (`exec_cases`) and the frame of each operation. -/
theorem writersOfEachPiece : Obligations.WritersOfEachPiece := by
  refine ⟨fun i s t h => ⟨exec_frame h, ?flagOnly, exec_halted_of_loaded_or_faultCause_ne h⟩,
    fun op s t hwf hstep hreset h => ⟨operate_frame hstep hreset h, ?loaded, ?cause, ?outside⟩⟩
  case flagOnly =>
    rintro (⟨x, rfl⟩ | ⟨x, y, n, rfl⟩)
    · exact exec_addI_regs h
    · exact exec_drw_regs h
  case loaded => rcases operate_keeps_or_launches hstep hreset h with ⟨hl, -⟩ | ⟨hl, -⟩ <;> simp [hl]
  case cause => rcases operate_keeps_or_launches hstep hreset h with ⟨-, hc⟩ | ⟨-, hc⟩ <;> simp [hc]
  case outside =>
    rintro bytes a rfl ha
    cases h
    exact s.read_install_outside bytes a hwf ha

end Sys2Proof.Machine

/-! PROOFS. Decode and encode agree (`30_encoding.md` R61 to R64, `20_memory.md` R47). -/

namespace Sys2Proof

/-! ### Where the groups with a secondary key dispatch (`30_encoding.md` R62, R64) -/

theorem decodeWord_of_opGroup_8 {w : Word} (h : opGroup w = 0x8) : decodeWord w = decodeGroup8 w := by
  simp [decodeWord, h]

theorem decodeWord_of_opGroup_E {w : Word} (h : opGroup w = 0xE) : decodeWord w = decodeGroupE w := by
  simp [decodeWord, h]

theorem decodeWord_of_opGroup_F {w : Word} (h : opGroup w = 0xF) : decodeWord w = decodeGroupF w := by
  simp [decodeWord, h]

/-- Decoding inverts encoding on words. Each case recovers the group of the encoded word, then the secondary key where
the group has one, and last the operands, by what each field of a format is. -/
theorem decodeWord_encode (i : Instr) : decodeWord (encode i) = .ok i := by
  cases i with
  | cls | ret => rfl
  | jp | call | seImm | sneImm | seReg | ldImm | addImm | sneReg | ldI | jpV0 | rnd | drw => simp [encode, decodeWord]
  | ldReg | orReg | andReg | xorReg | addReg | subReg | shr | subn | shl =>
    rw [encode, decodeWord_of_opGroup_8 (opGroup_encodeXYN ..)]; simp [decodeGroup8]
  | skp | sknp =>
    rw [encode, decodeWord_of_opGroup_E (opGroup_encodeXNN ..)]; simp [decodeGroupE]
  | ldVxDt | ldVxK | ldDtVx | ldStVx | addI | ldF | ldB | storeRegs | loadRegs =>
    rw [encode, decodeWord_of_opGroup_F (opGroup_encodeXNN ..)]; simp [decodeGroupF]

/-- The two bytes of a recognized word decode to its instruction, and the bytes after them are left
(`20_memory.md` R47). -/
theorem decode_bytes_append {w : Word} {i : Instr} (h : decodeWord w = .ok i) (rest : List Byte) :
    decode ([highByte w, lowByte w] ++ rest) = .ok (i, rest) := by
  simp [decode, wordOfBytes_bytes, h]

/-- Settles O2: words by `decodeWord_encode`; the bytes of a word make that word again. -/
theorem decodeOfEncode : Obligations.DecodeOfEncode :=
  fun i rest => ⟨decodeWord_encode i, decode_bytes_append (decodeWord_encode i) rest⟩

end Sys2Proof

/-! PROOFS. What Decode recognizes (`30_encoding.md` R62 to R64). -/

namespace Sys2Proof

/-! ### The recognized secondary keys, one group at a time (`30_encoding.md` R64) -/

theorem decodeWord_of_opGroup_0 {w : Word} (h : opGroup w = 0x0) : decodeWord w = decodeGroup0 w := by
  simp [decodeWord, h]

theorem decodeGroup0_ok_iff (w : Word) : (∃ i, decodeGroup0 w = .ok i) ↔ opNNN w ∈ [0x0E0, 0x0EE] := by
  unfold decodeGroup0
  split_ifs <;> simp_all

theorem decodeGroup8_ok_iff (w : Word) :
    (∃ i, decodeGroup8 w = .ok i) ↔ opN w ∈ [0, 1, 2, 3, 4, 5, 6, 7, 0xE] := by
  have hkeys : opN w ∈ [0, 1, 2, 3, 4, 5, 6, 7, 0xE] ↔ (opN w).toNat ∈ [0, 1, 2, 3, 4, 5, 6, 7, 0xE] := by
    simp [← BitVec.toNat_inj]
  rw [hkeys, decodeGroup8]
  split <;> simp_all

theorem decodeGroupE_ok_iff (w : Word) : (∃ i, decodeGroupE w = .ok i) ↔ opNN w ∈ [0x9E, 0xA1] := by
  unfold decodeGroupE
  split_ifs <;> simp_all

theorem decodeGroupF_ok_iff (w : Word) :
    (∃ i, decodeGroupF w = .ok i) ↔ opNN w ∈ [0x07, 0x0A, 0x15, 0x18, 0x1E, 0x29, 0x33, 0x55, 0x65] := by
  unfold decodeGroupF
  split_ifs <;> simp_all

/-- The twelve groups that have no secondary key. -/
theorem decodeWord_ok_of_opGroup_mem {w : Word}
    (h : opGroup w ∈ [0x1, 0x2, 0x3, 0x4, 0x5, 0x6, 0x7, 0x9, 0xA, 0xB, 0xC, 0xD]) : ∃ i, decodeWord w = .ok i := by
  simp only [List.mem_cons, List.not_mem_nil, or_false] at h
  rcases h with h | h | h | h | h | h | h | h | h | h | h | h <;> simp [decodeWord, h]

theorem group_cases (g : Nibble) : g = 0x0 ∨ g = 0x8 ∨ g = 0xE ∨ g = 0xF ∨
    g ∈ [0x1, 0x2, 0x3, 0x4, 0x5, 0x6, 0x7, 0x9, 0xA, 0xB, 0xC, 0xD] := by
  decide +revert

/-- Settles O5: a group with a secondary key recognizes exactly its keys, and no word of another group is rejected. -/
theorem secondaryKeysRecognized : Obligations.SecondaryKeysRecognized := by
  intro w
  rcases group_cases (opGroup w) with h | h | h | h | h
  · simp [decodeWord_of_opGroup_0 h, decodeGroup0_ok_iff, h]
  · simp [decodeWord_of_opGroup_8 h, decodeGroup8_ok_iff, h]
  · simp [decodeWord_of_opGroup_E h, decodeGroupE_ok_iff, h]
  · simp [decodeWord_of_opGroup_F h, decodeGroupF_ok_iff, h]
  · simp only [decodeWord_ok_of_opGroup_mem h, h, or_true]

end Sys2Proof

/-! PROOFS. The Steps that run no instruction: refused, or over an unrecognized word (`30_encoding.md` R66, R75). -/

namespace Sys2Proof.Machine

open Sys2Proof.Safety

theorem State.refuseStep_frame (s : State) : KeepsAllBut [.result] s s.refuseStep :=
  fun p hp => by cases p <;> simp_all [Keeps]

theorem step_of_not_loaded {s : State} (h : s.loaded = false) : step s = .next s.refuseStep := by
  rcases step_cases s with ⟨-, hs⟩ | ⟨hl, -⟩ | ⟨hl, -⟩ | ⟨hl, -⟩
  · exact hs
  all_goals simp [h] at hl

theorem step_of_unrecognized {s : State} {e : DecodeError} (hl : s.loaded = true) (hpc : s.pc.toNat + 1 < 4096)
    (hw : decodeWord s.fetchWord = .error e) : step s = .next s.unrecognized := by
  rcases step_cases s with ⟨hl', -⟩ | ⟨-, hpc', -⟩ | ⟨-, -, -, hs⟩ | ⟨-, -, i, hi, -⟩
  · simp [hl] at hl'
  · omega
  · exact hs
  · simp [hw] at hi

/-- Settles O8: of the four ways a Step goes, `loaded = 0` leaves the refusal, which writes the result only. -/
theorem unloadedStepRefused : Obligations.UnloadedStepRefused :=
  fun s h => ⟨s.refuseStep, step_of_not_loaded h, s.refuseStep_result, s.refuseStep_frame⟩

/-- Settles O10: the Step is the advance over an unrecognized word, which writes `pc` and the result only. -/
theorem unrecognizedWordOnlyAdvances : Obligations.UnrecognizedWordOnlyAdvances :=
  fun s _ hl hpc hw => ⟨s.unrecognized, step_of_unrecognized hl hpc hw, s.unrecognized_pc, s.unrecognized_result,
    s.nextAdvised_frame .unknownOpcode⟩

end Sys2Proof.Machine

/-! PROOFS. Control transfer (`40_flow.md` R80 to R87). -/

namespace Sys2Proof.Machine

open Sys2Proof.Safety

/-! ### Jumps (`40_flow.md` R81, R87) -/

/-- The exact sum of a 12-bit and an 8-bit number is below 2^16, so R87's truncation never cuts. -/
theorem indexedTarget_toNat (s : State) (nnn : Addr12) :
    (indexedTarget s nnn).toNat = nnn.toNat + (s.reg 0).toNat := by
  have hnnn : nnn.toNat < 2 ^ 12 := nnn.isLt
  have hv0 : (s.reg 0).toNat < 2 ^ 8 := (s.reg 0).isLt
  simp only [indexedTarget, BitVec.toNat_add, BitVec.toNat_setWidth]
  omega

theorem indexedTarget_le (s : State) (nnn : Addr12) : (indexedTarget s nnn).toNat ≤ 0x10FE := by
  have hnnn : nnn.toNat < 2 ^ 12 := nnn.isLt
  have hv0 : (s.reg 0).toNat < 2 ^ 8 := (s.reg 0).isLt
  rw [indexedTarget_toNat]
  omega

/-- Settles O22: the arm is the jump itself, which writes `pc` and the result only. -/
theorem jumpSetsCounter : Obligations.JumpSetsCounter :=
  fun nnn s => ⟨s.jumpTo (targetOf nnn), rfl, s.jumpTo_pc _, s.jumpTo_result _, s.jumpTo_frame _⟩

/-- Settles O23: the same jump, to a target that no truncation cuts. -/
theorem indexedJumpAddsV0 : Obligations.IndexedJumpAddsV0 :=
  fun nnn s => ⟨s.jumpTo (indexedTarget s nnn), rfl, indexedTarget_toNat s nnn, indexedTarget_le s nnn,
    s.jumpTo_result _, s.jumpTo_frame _⟩

/-! ### Call and return (`40_flow.md` R80, R82), each with its fatal halt (`60_exceptions.md` R171) -/

theorem exec_call_of_lt {s : State} (nnn : Addr12) (h : s.sp.val < 15) :
    exec (.call nnn) s = .next ((s.push s.pc).jumpTo (targetOf nnn)) := by
  have hsp : s.sp ≠ 15 := Fin.ne_of_lt h
  rw [exec_call, haltCause, if_neg hsp, State.haltOr, if_pos rfl]

theorem exec_call_of_full {s : State} (nnn : Addr12) (h : s.sp.val = 15) :
    exec (.call nnn) s = .next (s.fatalHalt .stackOverflow) := by
  have hsp : s.sp = 15 := Fin.ext h
  rw [exec_call, haltCause, if_pos hsp, State.haltOr, if_neg (by decide)]

theorem exec_ret_of_ne_zero {s : State} (h : s.sp.val ≠ 0) :
    exec .ret s = .next (s.pop.jumpTo (s.stackTop + 2)) := by
  have hsp : s.sp ≠ 0 := Fin.val_ne_iff.1 h
  rw [exec_ret, haltCause, if_neg hsp, State.haltOr, if_pos rfl]

theorem exec_ret_of_empty {s : State} (h : s.sp.val = 0) :
    exec .ret s = .next (s.fatalHalt .stackUnderflow) := by
  have hsp : s.sp = 0 := Fin.ext h
  rw [exec_ret, haltCause, if_pos hsp, State.haltOr, if_neg (by decide)]

/-- Settles O24: below the top the arm is a push and a jump, at the top it is the precise halt. -/
theorem callPushesCallSite : Obligations.CallPushesCallSite := by
  refine fun nnn s => ⟨fun h => ?room, fun h => ?full⟩
  case room =>
    have hframe := keepsAllBut_trans (s.push_frame s.pc) ((s.push s.pc).jumpTo_frame (targetOf nnn))
    exact ⟨_, exec_call_of_lt nnn h, State.jumpTo_pc _ _, s.push_sp s.pc h, fun j => s.push_slot s.pc h j j.isLt,
      State.jumpTo_result _ _, keepsAllBut_mono hframe (by decide)⟩
  case full => exact ⟨_, exec_call_of_full nnn h, s.fatalHalt_halted _⟩

/-- Settles O25: above 0 the arm is a pop, which writes no slot, and a jump; at 0 it is the precise halt. -/
theorem returnPopsCallSite : Obligations.ReturnPopsCallSite := by
  refine fun s => ⟨fun h => ?stacked, fun h => ?empty⟩
  case stacked =>
    have hsp : s.pop.sp.val + 1 = s.sp.val := by rw [s.pop_sp]; omega
    have hframe := keepsAllBut_trans s.pop_frame (s.pop.jumpTo_frame (s.stackTop + 2))
    exact ⟨_, exec_ret_of_ne_zero h, State.jumpTo_pc _ _, hsp, State.jumpTo_result _ _,
      keepsAllBut_mono hframe (by decide)⟩
  case empty => exact ⟨_, exec_ret_of_empty h, s.fatalHalt_halted _⟩

/-! ### Skips (`40_flow.md` R83 to R86) -/

/-- The arm of a skip does everything its rule says, for the condition that its test decides. -/
theorem next_skipIf_of_iff {c : Bool} {p : Prop} [Decidable p] (s : State) (h : c = true ↔ p) :
    ∃ t, (.next (s.skipIf c) : Answer) = .next t ∧ t.pc = (if p then s.pc + 4 else s.pc + 2) ∧
      t.result = ⟨.ok, .none, .none⟩ ∧ KeepsAllBut [.pc, .result] s t :=
  ⟨s.skipIf c, rfl, by rw [s.skipIf_pc]; exact if_congr h rfl rfl, s.skipIf_result c,
    s.skipIfAdvised_frame c .none⟩

/-- Settles O27: the two arms test `==` and `!=` of the register and the immediate. -/
theorem skipOnImmediate : Obligations.SkipOnImmediate :=
  fun _ _ s => ⟨next_skipIf_of_iff s beq_iff_eq, next_skipIf_of_iff s bne_iff_ne⟩

/-- Settles O28: the two arms test `==` and `!=` of the registers, and neither takes the nibble `N`. -/
theorem skipOnRegisters : Obligations.SkipOnRegisters :=
  fun _ _ _ s => ⟨next_skipIf_of_iff s beq_iff_eq, next_skipIf_of_iff s bne_iff_ne⟩

end Sys2Proof.Machine

/-! PROOFS. Load, arithmetic, logic and shifts (`41_alu.md` R100 to R110). -/

namespace Sys2Proof.Machine

open Sys2Proof.Safety

/-! ### The two ways such an instruction ends: one register write, or a flag and then a register write -/

theorem State.reg_setReg_same (s : State) (x : Nibble) (b : Byte) : (s.setReg x b).reg x = b := by
  rw [State.reg_setReg, if_pos rfl]

theorem State.setReg_nextInstr_frame (s : State) (x : Nibble) (b : Byte) :
    RegsKeptBut [x] s (s.setReg x b).nextInstr ∧ Sequential [.v] s (s.setReg x b).nextInstr :=
  let ⟨hregs, hparts⟩ := s.setReg_frame x b
  ⟨hregs, s.nextInstr_sequential _ [.v] hparts (by decide)⟩

/-- The destination holds the result, also where it is VF (`41_alu.md` R113). -/
theorem State.reg_setFlagThenReg_same (s : State) (f : Bool) (x : Nibble) (b : Byte) :
    (s.setFlagThenReg f x b).reg x = b := by
  rw [State.reg_setFlagThenReg, if_pos rfl]

/-- VF holds the flag where it is not the destination (`41_alu.md` R113). -/
theorem State.reg_vf_setFlagThenReg (s : State) (f : Bool) {x : Nibble} (b : Byte) (hx : x ≠ vf) :
    (s.setFlagThenReg f x b).reg vf = flagByte f := by
  rw [State.reg_setFlagThenReg, if_neg hx.symm, if_pos rfl]

theorem State.setFlagThenReg_nextInstr_frame (s : State) (f : Bool) (x : Nibble) (b : Byte) :
    RegsKeptBut [x, vf] s (s.setFlagThenReg f x b).nextInstr ∧ Sequential [.v] s (s.setFlagThenReg f x b).nextInstr :=
  let ⟨hregs, hparts⟩ := s.setFlagThenReg_frame f x b
  ⟨hregs, s.nextInstr_sequential _ [.v] hparts (by decide)⟩

/-! ### The flags as numbers (`10_state.md` R11, `41_alu.md` R112) -/

theorem flagByte_decide (p : Prop) [Decidable p] : flagByte (decide p) = if p then 0x01 else 0x00 := by
  simp only [flagByte, decide_eq_true_eq]

theorem flagByte_toNat (c : Bool) : (flagByte c).toNat = c.toNat := by cases c <;> rfl

theorem flagByte_lowBit_toNat (o : Byte) : (flagByte (lowBit o)).toNat = o.toNat % 2 := by
  rw [flagByte_toNat, lowBit, BitVec.getLsbD, Nat.toNat_testBit, Nat.pow_zero, Nat.div_one]

/-- Bit 7 is all that is left above 127, as a byte is below 256. -/
theorem flagByte_highBit_toNat (o : Byte) : (flagByte (highBit o)).toNat = o.toNat / 128 := by
  have ho : o.toNat < 256 := o.isLt
  rw [flagByte_toNat, highBit, BitVec.getLsbD, Nat.toNat_testBit]
  omega

/-- The 8-bit difference is that of the integers modulo 256. -/
theorem byte_sub_toNat (a b : Byte) : ((a - b).toNat : Int) = ((a.toNat : Int) - b.toNat) % 256 := by
  have ha : a.toNat < 256 := a.isLt
  have hb : b.toNat < 256 := b.isLt
  rw [BitVec.toNat_sub]
  omega

/-! ### The arms of the shifts, over the operand that `SHIFT_USES_VY` names (`41_alu.md` R108, R110) -/

theorem exec_shr {s : State} {x y : Nibble} {o : Byte} (ho : o = shiftOperand Config.shiftUsesVY s x y) :
    exec (.shr x y) s = .next (s.setFlagThenReg (lowBit o) x (o >>> 1)).nextInstr := ho ▸ rfl

theorem exec_shl {s : State} {x y : Nibble} {o : Byte} (ho : o = shiftOperand Config.shiftUsesVY s x y) :
    exec (.shl x y) s = .next (s.setFlagThenReg (highBit o) x (o <<< 1)).nextInstr := ho ▸ rfl

/-! ### One register write (`41_alu.md` R100 to R105) -/

/-- Settles O29: each arm is one write of VX, of the immediate or of the 8-bit sum. -/
theorem loadAndAddImmediate : Obligations.LoadAndAddImmediate := by
  refine fun x nn s => ⟨⟨_, rfl, ?load, s.setReg_nextInstr_frame x _⟩, ⟨_, rfl, ?add, s.setReg_nextInstr_frame x _⟩⟩
  case load => exact s.reg_setReg_same x nn
  case add => rw [State.nextInstr_reg, State.reg_setReg_same, BitVec.toNat_add]

/-- Settles O30: each arm is one write of VX, and the 8-bit operation acts on each bit. -/
theorem copyAndLogic : Obligations.CopyAndLogic := by
  refine fun x y s => ⟨⟨_, rfl, ?copy, s.setReg_nextInstr_frame x _⟩, ⟨_, rfl, ?or, s.setReg_nextInstr_frame x _⟩,
    ⟨_, rfl, ?and, s.setReg_nextInstr_frame x _⟩, ⟨_, rfl, ?xor, s.setReg_nextInstr_frame x _⟩⟩
  case copy => exact s.reg_setReg_same x (s.reg y)
  case or => intro k; rw [State.nextInstr_reg, State.reg_setReg_same, BitVec.getLsbD_or]
  case and => intro k; rw [State.nextInstr_reg, State.reg_setReg_same, BitVec.getLsbD_and]
  case xor => intro k; rw [State.nextInstr_reg, State.reg_setReg_same, BitVec.getLsbD_xor]

/-! ### A flag, then a register write (`41_alu.md` R106 to R110) -/

/-- Settles O31: VF gets the carry, then VX the 8-bit sum, both of the old operands. -/
theorem addWithCarryOut : Obligations.AddWithCarryOut := by
  refine fun x y s => ⟨_, rfl, ?sum, fun hx => ?carry, s.setFlagThenReg_nextInstr_frame _ x _⟩
  case sum => rw [State.nextInstr_reg, State.reg_setFlagThenReg_same, BitVec.toNat_add]
  case carry => rw [State.nextInstr_reg, s.reg_vf_setFlagThenReg _ _ hx, carryOut, flagByte_decide]

/-- What both subtractions do, with `a` the minuend and `b` the subtrahend. -/
theorem State.sub_setFlagThenReg (s : State) (x : Nibble) (a b : Byte) :
    (((s.setFlagThenReg (notBorrow a b) x (a - b)).reg x).toNat : Int) = ((a.toNat : Int) - b.toNat) % 256 ∧
    (x ≠ vf → (s.setFlagThenReg (notBorrow a b) x (a - b)).reg vf = if a.toNat ≥ b.toNat then 0x01 else 0x00) := by
  refine ⟨?difference, fun hx => ?flag⟩
  case difference => rw [State.reg_setFlagThenReg_same, byte_sub_toNat]
  case flag => rw [s.reg_vf_setFlagThenReg _ _ hx, notBorrow, flagByte_decide]

/-- Settles O32: one subtraction with its not-borrow flag, with VX as the minuend or as the subtrahend. -/
theorem subtractWithNotBorrow : Obligations.SubtractWithNotBorrow := by
  intro x y s
  obtain ⟨hxy, hxyFlag⟩ := s.sub_setFlagThenReg x (s.reg x) (s.reg y)
  obtain ⟨hyx, hyxFlag⟩ := s.sub_setFlagThenReg x (s.reg y) (s.reg x)
  exact ⟨⟨_, rfl, hxy, hxyFlag, s.setFlagThenReg_nextInstr_frame _ x _⟩,
    ⟨_, rfl, hyx, hyxFlag, s.setFlagThenReg_nextInstr_frame _ x _⟩⟩

/-- Settles O33: the operand is the one the parameter names, false here; VF gets its bit 0 or bit 7, then VX the
shifted operand. -/
theorem shiftsByOne : Obligations.ShiftsByOne := by
  refine ⟨rfl, fun x y s o ho => ⟨
    ⟨_, exec_shr ho, ?half, fun hx => ?bit0, s.setFlagThenReg_nextInstr_frame _ x _⟩,
    ⟨_, exec_shl ho, ?double, fun hx => ?bit7, s.setFlagThenReg_nextInstr_frame _ x _⟩⟩⟩
  case half =>
    rw [State.nextInstr_reg, State.reg_setFlagThenReg_same, BitVec.toNat_ushiftRight, Nat.shiftRight_one]
  case bit0 => rw [State.nextInstr_reg, s.reg_vf_setFlagThenReg _ _ hx, flagByte_lowBit_toNat]
  case double =>
    rw [State.nextInstr_reg, State.reg_setFlagThenReg_same, BitVec.toNat_shiftLeft, Nat.shiftLeft_eq, Nat.mul_comm]
  case bit7 => rw [State.nextInstr_reg, s.reg_vf_setFlagThenReg _ _ hx, flagByte_highBit_toNat]

end Sys2Proof.Machine

/-! PROOFS. The index register and memory transfer (`42_index_memory.md` R120 to R126). -/

namespace Sys2Proof.Machine

open Sys2Proof.Safety

/-! ### The index register (`42_index_memory.md` R120 to R122) -/

/-- Settles O36: the arm is one write of `I`. -/
theorem loadIndex : Obligations.LoadIndex :=
  fun _ s => ⟨_, rfl, rfl, s.nextInstr_sequential _ [.i] (s.setIndex_frame _) (by decide)⟩

/-- The mask keeps the low 12 bits of the exact sum: what the 16-bit sum drops is a multiple of 4096. -/
theorem maskedIndexSum_toNat (i : Word) (b : Byte) :
    ((i + b.setWidth 16) &&& 0x0FFF).toNat = (i.toNat + b.toNat) % 4096 := by
  have hb : b.toNat < 2 ^ 8 := b.isLt
  have hmask : (0x0FFF : Word).toNat = 2 ^ 12 - 1 := rfl
  rw [BitVec.toNat_and, hmask, Nat.and_two_pow_sub_one_eq_mod, BitVec.toNat_add, BitVec.toNat_setWidth]
  omega

/-- Settles O37: VF gets the flag and `I` the masked sum, both of the old VX. -/
theorem addToIndex : Obligations.AddToIndex := by
  refine fun x s => ⟨_, rfl, maskedIndexSum_toNat s.i (s.reg x), ?flag, (s.setReg_frame vf _).1,
    s.nextInstr_sequential _ [.i, .v] (s.setIndex_setReg_frame vf _ _) (by decide)⟩
  case flag => rw [State.nextInstr_reg, State.setIndex_reg, State.reg_setReg_same, indexOverflow, flagByte_decide]

/-- The glyph address of even the largest byte fits 16 bits, so R122's truncation never cuts. -/
theorem glyphAddress_toNat (b : Byte) : (glyphAddress b).toNat = Config.fontBase + 5 * b.toNat := by
  have hb : b.toNat < 2 ^ 8 := b.isLt
  rw [glyphAddress, BitVec.toNat_ofNat, Config.fontBase]
  omega

/-- Settles O38: the arm is one write of `I`, of an address that no truncation cuts. -/
theorem pointAtGlyph : Obligations.PointAtGlyph := by
  intro x s
  have hframe := keepsAllBut_trans (s.setIndex_frame (glyphAddress (s.reg x)))
    (State.nextAdvised_frame _ (digitAdvisory (s.reg x)))
  exact ⟨_, rfl, glyphAddress_toNat (s.reg x), rfl, rfl, keepsAllBut_mono hframe (by decide)⟩

/-! ### A transfer whose highest address is tested first (`42_index_memory.md` R126) -/

/-- With the highest address in memory the transfer completes, else it is the precise halt. -/
theorem exec_of_highestAddress {i : Instr} {s u : State} {a : Nat} {c : FaultCause} (hc : c ≠ .none)
    (h : exec i s = .next (s.haltOr (if a ≥ 4096 then c else .none) u)) :
    (a < 4096 → exec i s = .next u) ∧ (a ≥ 4096 → ∃ t, exec i s = .next t ∧ Halted c s t) := by
  refine ⟨fun ha => ?valid, fun ha => ⟨s.fatalHalt c, ?invalid, s.fatalHalt_halted c⟩⟩
  case valid => rw [h, if_neg (Nat.not_le.2 ha), State.haltOr, if_pos rfl]
  case invalid => rw [h, if_pos ha, State.haltOr, if_neg hc]

/-! ### The decimal digits (`42_index_memory.md` R123) -/

theorem hundredsDigit_toNat (b : Byte) : (hundredsDigit b).toNat = b.toNat / 100 := by
  have hb : b.toNat < 2 ^ 8 := b.isLt
  rw [hundredsDigit, BitVec.toNat_ofNat]
  omega

theorem tensDigit_toNat (b : Byte) : (tensDigit b).toNat = b.toNat / 10 % 10 := by
  rw [tensDigit, BitVec.toNat_ofNat]
  omega

theorem onesDigit_toNat (b : Byte) : (onesDigit b).toNat = b.toNat % 10 := by
  rw [onesDigit, BitVec.toNat_ofNat]
  omega

/-- Settles O39: three bytes from `I` up, each a digit, or the precise halt. -/
theorem storeDecimalDigits : Obligations.StoreDecimalDigits := by
  intro x s hwf
  obtain ⟨hvalid, hhalts⟩ := exec_of_highestAddress (by decide) (exec_ldB s x)
  refine ⟨fun h => ⟨_, hvalid h, ?hundreds, ?tens, ?ones, fun a ha => ?outside,
    s.nextInstr_sequential _ [.mem] (s.writeBytes_frame _ _) (by decide)⟩, hhalts⟩
  all_goals
    rw [State.nextInstr_read, s.read_writeBytes _ _ _ hwf (show s.i.toNat + 3 ≤ 4096 by omega)]
    simp only [List.length_cons, List.length_nil]
  case hundreds => rw [if_pos (by omega), Nat.sub_self]; exact hundredsDigit_toNat _
  case tens => rw [if_pos (by omega), Nat.add_sub_cancel_left]; exact tensDigit_toNat _
  case ones => rw [if_pos (by omega), Nat.add_sub_cancel_left]; exact onesDigit_toNat _
  case outside => exact if_neg (by omega)

/-! ### The registers to and from memory (`42_index_memory.md` R124, R125) -/

/-- `FX55` stores register `r` at `base + r` (`42_index_memory.md` R124). -/
theorem State.read_storeRegsFrom_reg (s : State) {base n : Nat} {r : Nibble} (hwf : s.mem.wf = true)
    (hn : base + n ≤ 4096) (hr : r.toNat < n) : (s.storeRegsFrom base n).read (base + r.toNat) = s.reg r := by
  rw [s.read_storeRegsFrom base n hwf hn, if_pos (by omega), Nat.add_sub_cancel_left, BitVec.ofNat_toNat,
    BitVec.setWidth_eq]

/-- Settles O40: the store writes `X + 1` bytes and leaves `I`, as the parameter is false; or the precise halt. -/
theorem storeRegisters : Obligations.StoreRegisters := by
  refine ⟨rfl, fun x s hwf => ?_⟩
  obtain ⟨hvalid, hhalts⟩ := exec_of_highestAddress (by decide) (exec_storeRegs s x)
  have hframe := s.storeRegsFrom_frame s.i.toNat (transferCount x)
  refine ⟨fun h => ⟨_, hvalid h, fun r hr => ?inside, fun a ha => ?outside, hframe .i (by decide),
    s.nextInstr_sequential _ [.mem] hframe (by decide)⟩, hhalts⟩
  case inside => exact s.read_storeRegsFrom_reg hwf h (Nat.lt_succ_of_le hr)
  case outside =>
    rw [State.nextInstr_read, s.read_storeRegsFrom _ _ hwf h, transferCount]
    exact if_neg (by omega)

/-- Settles O41: the load writes registers 0 to `X` and leaves `I`, as the parameter is false; or the precise halt. -/
theorem loadRegisters : Obligations.LoadRegisters := by
  refine ⟨rfl, fun x s => ?_⟩
  obtain ⟨hvalid, hhalts⟩ := exec_of_highestAddress (by decide) (exec_loadRegs s x)
  have hframe := s.loadRegsFrom_frame s.i.toNat (transferCount x)
  refine ⟨fun h => ⟨_, hvalid h, fun r => ?regs, hframe .i (by decide),
    s.nextInstr_sequential _ [.v] hframe (by decide)⟩, hhalts⟩
  case regs =>
    have hcount : transferCount x ≤ 16 := x.isLt
    have hmoved : r.toNat < transferCount x ↔ r.toNat ≤ x.toNat := Nat.lt_succ_iff
    rw [State.nextInstr_reg, s.reg_loadRegsFrom _ _ hcount, if_congr hmoved rfl rfl]

end Sys2Proof.Machine

/-! PROOFS. The display instructions (`43_display.md` R140 to R142). -/

namespace Sys2Proof.Machine

open Sys2Proof.Safety

/-! ### Clearing the display (`43_display.md` R140) -/

/-- Settles O44: the arm is one write of the display, of 32 zero rows. -/
theorem clearDisplay : Obligations.ClearDisplay :=
  fun s => ⟨_, rfl, fun y => Vector.getElem_replicate y.isLt,
    s.nextInstr_sequential _ [.disp] (s.setDisplay_frame _) (by decide)⟩

/-! ### What a drawn sprite leaves (`43_display.md` R141) -/

/-- A row of the display, by its index instead of by the total lookup. -/
theorem displayRow_fin (d : Vector PixelRow 32) (q : Fin 32) : displayRow d q.val = d[q] := by
  rw [displayRow, Vector.getElem?_eq_getElem q.isLt]; rfl

/-- The rows that are drawn end at the bottom of the display. -/
theorem spriteTop_add_visibleRows_le (s : State) (y n : Nibble) : spriteTop s y + visibleRows s y n ≤ 32 := by
  unfold visibleRows spriteTop; omega

theorem State.drawSprite_row (s : State) (x y n : Nibble) (q : Fin 32) :
    (s.drawSprite x y n).disp[q] =
      if spriteTop s y ≤ q.val ∧ q.val < spriteTop s y + visibleRows s y n then
        s.disp[q] ^^^ spritePattern (spriteColumn s x) (s.read (s.i.toNat + (q.val - spriteTop s y)))
      else s.disp[q] := by
  have hrows := displayRow_drawRows s (spriteColumn s x) _ _ (spriteTop_add_visibleRows_le s y n) q.val
  simp only [displayRow_fin] at hrows
  exact hrows

theorem State.drawSprite_reg_vf (s : State) (x y n : Nibble) :
    (s.drawSprite x y n).reg vf =
      flagByte (drawRows s (spriteColumn s x) (spriteTop s y) (visibleRows s y n)).2 :=
  s.reg_setReg_same vf _

theorem flagByte_eq_one_iff (c : Bool) : flagByte c = 0x01 ↔ c = true := by cases c <;> decide

/-- The collision flag, with the drawn rows named by their place on the display instead of in the sprite. -/
theorem drawRows_hit_iff_row (s : State) {x0 y0 n : Nat} (hn : y0 + n ≤ 32) :
    (drawRows s x0 y0 n).2 = true ↔ ∃ q : Fin 32, y0 ≤ q.val ∧ q.val < y0 + n ∧
      s.disp[q] &&& spritePattern x0 (s.read (s.i.toNat + (q.val - y0))) ≠ 0 := by
  rw [hit_drawRows s x0 y0 n hn]
  constructor
  · rintro ⟨j, hj, hhit⟩
    refine ⟨⟨y0 + j, by omega⟩, Nat.le_add_right y0 j, Nat.add_lt_add_left hj y0, ?_⟩
    rwa [← displayRow_fin, Nat.add_sub_cancel_left]
  · rintro ⟨q, htop, hbottom, hhit⟩
    refine ⟨q.val - y0, by omega, ?_⟩
    rwa [Nat.add_sub_cancel' htop, displayRow_fin]

/-! ### When `DXYN` draws (`43_display.md` R141, `60_exceptions.md` R171) -/

theorem haltCause_drw (s : State) (x y n : Nibble) :
    haltCause s (.drw x y n) =
      if 0 < visibleRows s y n ∧ s.i.toNat + (visibleRows s y n - 1) ≥ 4096 then .memReadOob else .none := rfl

theorem exec_drw_of_valid {s : State} (x : Nibble) {y n : Nibble}
    (h : visibleRows s y n = 0 ∨ s.i.toNat + visibleRows s y n - 1 < 4096) :
    exec (.drw x y n) s = .next (s.drawSprite x y n).nextInstr := by
  rw [exec_drw, haltCause_drw, if_neg (by omega), State.haltOr, if_pos rfl]

theorem exec_drw_of_oob {s : State} (x : Nibble) {y n : Nibble} (hrows : visibleRows s y n > 0)
    (h : s.i.toNat + visibleRows s y n - 1 ≥ 4096) :
    exec (.drw x y n) s = .next (s.fatalHalt .memReadOob) := by
  rw [exec_drw, haltCause_drw, if_pos (by omega), State.haltOr, if_neg (by decide)]

/-- Settles O45: with every visible row in memory the arm draws the sprite and advances, else it is the precise
halt. -/
theorem drawXorsVisibleRows : Obligations.DrawXorsVisibleRows := by
  rintro x y n s x0 y0 rows rfl rfl rfl
  refine ⟨fun h => ⟨_, exec_drw_of_valid x h, s.drawSprite_row x y n, ?flagByte, ?collision,
    s.drawSprite_regs x y n, s.nextInstr_sequential _ [.disp, .v] (s.drawSprite_frame x y n) (by decide)⟩,
    fun hrows h => ⟨_, exec_drw_of_oob x hrows h, s.fatalHalt_halted _⟩⟩
  all_goals rw [State.nextInstr_reg, s.drawSprite_reg_vf]
  case flagByte => exact ite_eq_or_eq _ _ _
  case collision =>
    rw [flagByte_eq_one_iff]
    exact drawRows_hit_iff_row s (spriteTop_add_visibleRows_le s y n)

end Sys2Proof.Machine

/-! PROOFS. The keypad and timer instructions (`44_keypad_timers.md` R150 to R156). -/

namespace Sys2Proof.Machine

open Sys2Proof.Safety

/-! ### Skips on a key (`44_keypad_timers.md` R150, R151, R156) -/

/-- Settles O48: the key that the statement names is the one that both arms look up; `EXA1` tests its negation. -/
theorem skipOnKey : Obligations.SkipOnKey := by
  intro x s isPressed adv hpressed hadv
  obtain rfl : isPressed = pressed s (s.reg x) := hpressed.trans (pressed_eq s (s.reg x)).symm
  obtain rfl : adv = keyAdvisory (s.reg x) := hadv
  refine ⟨⟨_, rfl, s.skipIfAdvised_pc _ _, s.skipIfAdvised_result _ _, s.skipIfAdvised_frame _ _⟩,
    ⟨_, rfl, ?negated, s.skipIfAdvised_result _ _, s.skipIfAdvised_frame _ _⟩⟩
  case negated => rw [s.skipIfAdvised_pc]; cases pressed s (s.reg x) <;> rfl

/-! ### Timer moves (`44_keypad_timers.md` R152, R154, R155) -/

/-- Settles O49: each arm is one write, of a register or of a timer. -/
theorem moveTimers : Obligations.MoveTimers :=
  fun x s => ⟨⟨_, rfl, s.reg_setReg_same x s.dt, s.setReg_nextInstr_frame x s.dt⟩,
    ⟨_, rfl, rfl, s.nextInstr_sequential _ [.dt] (s.setDelay_frame _) (by decide)⟩,
    ⟨_, rfl, rfl, s.nextInstr_sequential _ [.st] (s.setSound_frame _) (by decide)⟩⟩

/-! ### The wait for a key (`44_keypad_timers.md` R153) -/

/-- The ascending scan stops at the least pressed key: it neither misses that key nor stops at another one. -/
theorem leastPressedKey_eq_some {s : State} {k : Fin 16} (hk : s.key[k] = true)
    (hmin : ∀ j : Fin 16, j < k → s.key[j] = false) : leastPressedKey s = some k.val := by
  cases hscan : leastPressedKey s with
  | none =>
    have hnone := (leastPressedKey_none s).1 hscan k
    simp [hk] at hnone
  | some j =>
    obtain ⟨hj, hjpressed, hjmin⟩ := leastPressedKey_some s j hscan
    rcases Nat.lt_trichotomy j k.val with hlt | rfl | hgt
    · have hreleased : s.key[j] = false := hmin ⟨j, hj⟩ hlt
      simp [hjpressed] at hreleased
    · rfl
    · have hreleased : s.key[k] = false := hjmin k.val hgt
      simp [hk] at hreleased

theorem exec_ldVxK_of_some {s : State} {k : Nat} (x : Nibble) (h : leastPressedKey s = some k) :
    exec (.ldVxK x) s = .next (s.setReg x (BitVec.ofNat 8 k)).nextInstr := by
  rw [exec, execLdVxK, h]

theorem exec_ldVxK_of_none {s : State} (x : Nibble) (h : leastPressedKey s = none) :
    exec (.ldVxK x) s = .next s.wait := by
  rw [exec, execLdVxK, h]

/-- Settles O50: the arm is one write of VX, of a key number that a byte holds, or the wait, which writes the result
only. -/
theorem waitForKey : Obligations.WaitForKey := by
  refine fun x s => ⟨fun k hk hmin => ?pressed, fun hnone => ?released⟩
  case pressed =>
    refine ⟨_, exec_ldVxK_of_some x (leastPressedKey_eq_some hk hmin), ?number, s.setReg_nextInstr_frame x _⟩
    rw [State.nextInstr_reg, State.reg_setReg_same, BitVec.toNat_ofNat]
    omega
  case released =>
    exact ⟨_, exec_ldVxK_of_none x ((leastPressedKey_none s).2 hnone), s.wait_result, s.wait_frame⟩

end Sys2Proof.Machine

/-! PROOFS. Fatal halts are precise (`60_exceptions.md` R172, R173). -/

namespace Sys2Proof.Machine

open Sys2Proof.Safety

@[simp] theorem State.haltOr_none (s u : State) : s.haltOr .none u = u := if_pos rfl

/-- An instruction that raises nothing ends `OK` or `WAITING` (`30_encoding.md` R71). -/
theorem exec_runnable_of_haltCause_none {i : Instr} {s t : State} (h : exec i s = .next t)
    (hc : haltCause s i = .none) : t.result.runnable = true := by
  cases i with
  | ret | call | drw | ldB | storeRegs | loadRegs =>
    simp only [exec_ret, exec_call, exec_drw, exec_ldB, exec_storeRegs, exec_loadRegs, hc, State.haltOr_none] at h
    cases h
    rfl
  | ldVxK x =>
    cases hk : leastPressedKey s with
    | some k => cases (exec_ldVxK_of_some x hk).symm.trans h; rfl
    | none => cases (exec_ldVxK_of_none x hk).symm.trans h; rfl
  | _ => cases h; rfl

theorem StepResult.not_runnable_of_halted {r : StepResult} (h : r.status = .halted) : ¬ r.runnable = true := by
  simp [StepResult.runnable, h]

/-- A halted instruction was exactly `raise FatalHalt` of a cause (`60_exceptions.md` R172). -/
theorem exec_halted_eq_fatalHalt {i : Instr} {s t : State} (h : exec i s = .next t)
    (ht : t.result.status = .halted) : haltCause s i ≠ .none ∧ t = s.fatalHalt (haltCause s i) := by
  rcases exec_completesOrHalts h with ⟨hc, -⟩ | hhalt
  · exact absurd (exec_runnable_of_haltCause_none h hc) (StepResult.not_runnable_of_halted ht)
  · exact hhalt

/-- A halted Step was exactly `raise FatalHalt` of a cause, by the fetch or by the instruction. -/
theorem step_halted_eq_fatalHalt {s t : State} (h : step s = .next t) (ht : t.result.status = .halted) :
    ∃ c, c ≠ .none ∧ t = s.fatalHalt c := by
  rcases step_cases s with ⟨-, hs⟩ | ⟨-, -, hs⟩ | ⟨-, -, -, hs⟩ | ⟨-, -, i, -, hs⟩
  · cases hs.symm.trans h
    simp at ht
  · cases hs.symm.trans h
    exact ⟨.fetchOob, by decide, rfl⟩
  · cases hs.symm.trans h
    simp at ht
  · exact ⟨haltCause s i, exec_halted_eq_fatalHalt (hs.symm.trans h) ht⟩

/-- Settles O13: a Step that halts is the one operation `fatalHalt`, which is precise for every cause. -/
theorem fatalHaltsArePrecise : Obligations.FatalHaltsArePrecise := by
  intro s t h ht
  obtain ⟨c, hc, rfl⟩ := step_halted_eq_fatalHalt h ht
  exact ⟨hc, s.fatalHalt_halted c⟩

end Sys2Proof.Machine

/-! PROOFS. Tick, KeyEvent and DisplaySnapshot (`60_exceptions.md` R183, R186, R188). -/

namespace Sys2Proof.Machine

open Sys2Proof.Safety

/-- Counting down stops at 0, as subtraction of natural numbers does (`60_exceptions.md` R183). -/
theorem countDown_toNat (b : Byte) : (countDown b).toNat = b.toNat - 1 := by
  unfold countDown
  split
  case isTrue hzero => subst hzero; rfl
  case isFalse hne =>
    have hpos : b.toNat ≠ 0 := fun h => hne (BitVec.eq_of_toNat_eq h)
    exact BitVec.toNat_sub_of_le (BitVec.le_def.2 (Nat.one_le_iff_ne_zero.2 hpos))

theorem State.setTimers_frame (s : State) (d b : Byte) (now : Nat) :
    KeepsAllBut [.dt, .st, .timerRef] s { s with dt := d, st := b, timerRef := now } :=
  fun p hp => by cases p <;> simp_all [Keeps, State.reg, State.read]

/-- Settles O51: from `timer_ref` on a Tick is not refused, and whether a period has elapsed decides which of the two
remaining cases it is. -/
theorem tickCountsDown : Obligations.TickCountsDown := by
  refine ⟨fun _ _ => rfl, fun period s now hnow => ?_⟩
  rcases s.tickWith_cases period now with ⟨hback, -⟩ | ⟨-, helapsed, ht⟩ | ⟨-, hearly, ht⟩
  · exact absurd hnow (Nat.not_le.2 hback)
  · exact ⟨_, ht, fun _ => ⟨countDown_toNat s.dt, countDown_toNat s.st, rfl⟩,
      fun hlt => absurd helapsed (Nat.not_le.2 hlt), s.setTimers_frame _ _ now⟩
  · exact ⟨s, ht, fun hle => absurd hle (Nat.not_le.2 hearly), fun _ => rfl, keepsAllBut_refl _ s⟩

theorem State.keyEvent_key_getElem (s : State) (k : Nibble) (isPressed : Bool) (j : Fin 16) :
    (s.keyEvent k isPressed).key[j] = if j.val = k.toNat then isPressed else s.key[j] :=
  (Vector.getElem_set k.isLt j.isLt).trans (if_congr eq_comm rfl rfl)

/-- Settles O52: a key event is one write of the key vector; a snapshot reads the rows of a state it leaves as it is. -/
theorem keyEventAndSnapshot : Obligations.KeyEventAndSnapshot :=
  fun s k isPressed =>
    ⟨⟨s.keyEvent k isPressed, rfl, s.keyEvent_key_getElem k isPressed, s.keyEvent_frame k isPressed⟩,
      ⟨s, rfl, rfl, rfl⟩⟩

end Sys2Proof.Machine

/-! PROOFS. Install (`70_reset_and_hazards.md` R204, R205). -/

namespace Sys2Proof.Machine

open Sys2Proof.Safety

theorem imageAccepted_iff (bytes : List Byte) :
    imageAccepted bytes = true ↔ 1 ≤ bytes.length ∧ bytes.length ≤ 3584 :=
  Bool.and_eq_true_iff.trans (and_congr decide_eq_true_iff decide_eq_true_iff)

theorem State.install_of_accepted (s : State) {bytes : List Byte} (haccepted : imageAccepted bytes = true) :
    s.install bytes = { s.writeBytes 0x200 bytes with loaded := true, faultCause := .none } :=
  if_pos haccepted

theorem State.install_of_rejected (s : State) {bytes : List Byte} (hrejected : imageAccepted bytes = false) :
    s.install bytes = s :=
  if_neg (Bool.eq_false_iff.1 hrejected)

/-- An accepted image stands at 0x200 and up (`70_reset_and_hazards.md` R204). -/
theorem State.read_install_inside (s : State) (bytes : List Byte) (j : Nat) (hwf : s.mem.wf = true)
    (haccepted : imageAccepted bytes = true) (hj : j < bytes.length) :
    (s.install bytes).read (0x200 + j) = bytes.getD j 0 := by
  obtain ⟨-, hlen⟩ := (imageAccepted_iff bytes).1 haccepted
  rw [s.install_of_accepted haccepted]
  calc (s.writeBytes 0x200 bytes).read (0x200 + j)
      = if 0x200 ≤ 0x200 + j ∧ 0x200 + j < 0x200 + bytes.length then bytes.getD (0x200 + j - 0x200) 0
        else s.read (0x200 + j) :=
        s.read_writeBytes 0x200 _ bytes hwf (by simp only [Config.memSize]; omega)
    _ = bytes.getD j 0 := by rw [if_pos (by omega), Nat.add_sub_cancel_left]

/-- Settles O53: the length decides acceptance; an accepted image is a run of bytes written at 0x200 and a launch, a
rejected one is no write at all. -/
theorem installWritesImage : Obligations.InstallWritesImage := by
  intro s bytes hwf
  refine ⟨fun hlen => ?_, fun hlen => ?_⟩
  · have haccepted : imageAccepted bytes = true := (imageAccepted_iff bytes).2 hlen
    have hlaunched := s.install_of_accepted haccepted
    exact ⟨s.install bytes, rfl, congrArg Reply.install haccepted, congrArg State.loaded hlaunched,
      congrArg State.faultCause hlaunched, fun j hj => s.read_install_inside bytes j hwf haccepted hj,
      fun a ha => s.read_install_outside bytes a hwf ha, s.install_frame bytes⟩
  · have hrejected : imageAccepted bytes = false := by
      rw [Bool.eq_false_iff, Ne, imageAccepted_iff]
      omega
    exact ⟨s.install bytes, rfl, congrArg Reply.install hrejected, s.install_of_rejected hrejected⟩

end Sys2Proof.Machine

/-! PROOFS. The invariant over Steps and over sequences of operations (`00_scope.md` R7, `10_state.md` R15, R17,
`20_memory.md` R41, R44, `40_flow.md` R80, `60_exceptions.md` R171). -/

namespace Sys2Proof.Machine

open Sys2Proof.Safety

/-! ### The updates keep the invariant -/

theorem inv_setReg {s : State} (h : Inv s) (x : Nibble) (b : Byte) : Inv (s.setReg x b) := { h with }

theorem inv_setFlagThenReg {s : State} (h : Inv s) (f : Bool) (x : Nibble) (b : Byte) :
    Inv (s.setFlagThenReg f x b) := { h with }

theorem inv_setDisplay {s : State} (h : Inv s) (d : Vector PixelRow 32) : Inv (s.setDisplay d) := { h with }

theorem inv_setDelay {s : State} (h : Inv s) (b : Byte) : Inv (s.setDelay b) := { h with }

theorem inv_setSound {s : State} (h : Inv s) (b : Byte) : Inv (s.setSound b) := { h with }

theorem inv_countDraw {s : State} (h : Inv s) : Inv s.countDraw := { h with }

theorem inv_pop {s : State} (h : Inv s) : Inv s.pop := { h with }

theorem inv_loadRegsFrom {s : State} (h : Inv s) (base n : Nat) : Inv (s.loadRegsFrom base n) :=
  s.loadRegsFrom_eq base n ▸ { h with }

theorem inv_setIndex {s : State} (h : Inv s) {w : Word} (hw : w.toNat ≤ 0x0FFF) : Inv (s.setIndex w) :=
  { h with index := hw }

theorem inv_setMem {s : State} (h : Inv s) {m : Memory} (hm : m.wf = true) : Inv { s with mem := m } :=
  { h with memory := hm }

theorem inv_writeBytes {s : State} (h : Inv s) {a : Nat} {bs : List Byte} (ha : a + bs.length ≤ 4096) :
    Inv (s.writeBytes a bs) :=
  s.writeBytes_eq a bs ▸ inv_setMem h (s.wf_writeBytes a bs h.memory ha)

theorem inv_storeRegsFrom {s : State} (h : Inv s) {base n : Nat} (hn : base + n ≤ 4096) :
    Inv (s.storeRegsFrom base n) :=
  s.storeRegsFrom_eq base n ▸ inv_setMem h (s.wf_storeRegsFrom base n h.memory hn)

/-- A push writes a slot above slot 0, and nothing else that the invariant reads (`10_state.md` R17). -/
theorem inv_push {s : State} (h : Inv s) {w : Word} (hw : w.toNat ≤ 0x0FFE) (hsp : s.sp.val < 15) :
    Inv (s.push w) := by
  refine { h with slotZero := ?slotZero, stacked := fun j => ?stacked }
  case slotZero => rw [s.push_slot w hsp 0 (by decide), if_neg (by omega)]; exact h.slotZero
  case stacked =>
    show ((s.push w).stack[j.val]).toNat ≤ 0x0FFE
    rw [s.push_slot w hsp j j.isLt]
    split
    · exact hw
    · exact h.stacked j

/-! ### The endings keep the invariant -/

theorem inv_setCounter {s : State} (h : Inv s) {w : Word} (hw : w.toNat ≤ 0x10FE) : Inv { s with pc := w } :=
  { h with counter := hw }

theorem inv_jumpTo {s : State} (h : Inv s) {w : Word} (hw : w.toNat ≤ 0x10FE) : Inv (s.jumpTo w) :=
  { inv_setCounter h hw with }

/-- Neither step from the address of a fetched word leaves the range of R44. -/
theorem counter_add_two_le {w : Word} (hw : w.toNat ≤ 0x0FFE) : (w + 2).toNat ≤ 0x1000 := by
  rw [BitVec.toNat_add]; exact (Nat.mod_le _ _).trans (Nat.add_le_add_right hw 2)

theorem counter_add_four_le {w : Word} (hw : w.toNat ≤ 0x0FFE) : (w + 4).toNat ≤ 0x1002 := by
  rw [BitVec.toNat_add]; exact (Nat.mod_le _ _).trans (Nat.add_le_add_right hw 4)

theorem inv_nextAdvised {s : State} (h : Inv s) (hpc : s.pc.toNat ≤ 0x0FFE) (a : Advisory) : Inv (s.nextAdvised a) :=
  { inv_setCounter h ((counter_add_two_le hpc).trans (by decide)) with }

theorem inv_skipIfAdvised {s : State} (h : Inv s) (hpc : s.pc.toNat ≤ 0x0FFE) (c : Bool) (a : Advisory) :
    Inv (s.skipIfAdvised c a) := by
  have hw : (if c then s.pc + 4 else s.pc + 2).toNat ≤ 0x10FE := by
    split
    · exact (counter_add_four_le hpc).trans (by decide)
    · exact (counter_add_two_le hpc).trans (by decide)
  exact { inv_setCounter h hw with }

theorem inv_wait {s : State} (h : Inv s) : Inv s.wait := { h with }

theorem inv_refuseStep {s : State} (h : Inv s) : Inv s.refuseStep := { h with }

/-- A fatal halt records a cause, but leaves the machine not loaded (`60_exceptions.md` R172). -/
theorem inv_fatalHalt {s : State} (h : Inv s) (c : FaultCause) : Inv (s.fatalHalt c) :=
  { h with cause := fun hl => absurd hl Bool.false_ne_true }

/-- An instruction that can halt keeps the invariant when its update does so where it is done. -/
theorem inv_haltOr {s u : State} {c : FaultCause} (h : Inv s) (hu : c = .none → Inv u) : Inv (s.haltOr c u) := by
  unfold State.haltOr
  split
  · exact hu ‹_›
  · exact inv_fatalHalt h c

/-! ### The words written to `I` and `pc` are in range -/

theorem targetOf_le (nnn : Addr12) : (targetOf nnn).toNat ≤ 0x0FFF := by
  have hnnn : nnn.toNat < 2 ^ 12 := nnn.isLt
  rw [targetOf, BitVec.toNat_setWidth]; omega

theorem glyphAddress_le (b : Byte) : (glyphAddress b).toNat ≤ 0x0FFF := by
  have hb : b.toNat < 2 ^ 8 := b.isLt
  rw [glyphAddress_toNat, Config.fontBase]; omega

theorem maskedIndexSum_le (i : Word) (b : Byte) : ((i + b.setWidth 16) &&& 0x0FFF).toNat ≤ 0x0FFF := by
  rw [maskedIndexSum_toNat]; omega

/-! ### The instructions that write memory or push, where they raise nothing (`60_exceptions.md` R171) -/

theorem haltCause_call_eq_none {s : State} {nnn : Addr12} : haltCause s (.call nnn) = .none ↔ s.sp.val < 15 := by
  simp only [haltCause, ite_eq_right_iff, reduceCtorEq, imp_false, Fin.ext_iff]
  omega

theorem haltCause_ldB_eq_none {s : State} {x : Nibble} : haltCause s (.ldB x) = .none ↔ s.i.toNat + 2 < 4096 := by
  simp only [haltCause, ite_eq_right_iff, reduceCtorEq, imp_false, ge_iff_le, Nat.not_le]

theorem haltCause_storeRegs_eq_none {s : State} {x : Nibble} :
    haltCause s (.storeRegs x) = .none ↔ s.i.toNat + x.toNat < 4096 := by
  simp only [haltCause, ite_eq_right_iff, reduceCtorEq, imp_false, ge_iff_le, Nat.not_le]

/-! ### One instruction, one Step, one operation -/

/-- Every instruction that was fetched keeps the invariant: each is one of the updates and one of the endings above, or
a fatal halt. -/
theorem exec_inv {i : Instr} {s t : State} (h : Inv s) (hpc : s.pc.toNat ≤ 0x0FFE) (he : exec i s = .next t) :
    Inv t := by
  cases i with
  | ret =>
    cases (exec_ret s).symm.trans he
    have htarget := (counter_add_two_le (h.stacked s.sp)).trans (show 0x1000 ≤ 0x10FE by decide)
    exact inv_haltOr h fun _ => inv_jumpTo (inv_pop h) htarget
  | call nnn =>
    cases (exec_call s nnn).symm.trans he
    exact inv_haltOr h fun hroom =>
      inv_jumpTo (inv_push h hpc (haltCause_call_eq_none.1 hroom)) ((targetOf_le nnn).trans (by decide))
  | ldB x =>
    cases (exec_ldB s x).symm.trans he
    refine inv_haltOr h fun hvalid => inv_nextAdvised (inv_writeBytes h (haltCause_ldB_eq_none.1 hvalid)) ?_ .none
    rwa [s.writeBytes_eq]
  | storeRegs x =>
    cases (exec_storeRegs s x).symm.trans he
    refine inv_haltOr h fun hvalid =>
      inv_nextAdvised (inv_storeRegsFrom h (haltCause_storeRegs_eq_none.1 hvalid)) ?_ .none
    rwa [s.storeRegsFrom_eq]
  | loadRegs x =>
    cases (exec_loadRegs s x).symm.trans he
    refine inv_haltOr h fun _ => inv_nextAdvised (inv_loadRegsFrom h _ _) ?_ .none
    rwa [s.loadRegsFrom_eq]
  | drw x y n =>
    cases (exec_drw s x y n).symm.trans he
    exact inv_haltOr h fun _ => inv_nextAdvised (inv_setDisplay (inv_setReg h _ _) _) hpc .none
  | ldVxK x =>
    cases hk : leastPressedKey s with
    | some k =>
      cases (exec_ldVxK_of_some x hk).symm.trans he
      exact inv_nextAdvised (inv_setReg h _ _) hpc .none
    | none =>
      cases (exec_ldVxK_of_none x hk).symm.trans he
      exact inv_wait h
  | jp nnn => cases he; exact inv_jumpTo h ((targetOf_le nnn).trans (by decide))
  | jpV0 nnn => cases he; exact inv_jumpTo h (indexedTarget_le s nnn)
  | seImm | sneImm | seReg | sneReg | skp | sknp => cases he; exact inv_skipIfAdvised h hpc _ _
  | ldImm | addImm | ldReg | orReg | andReg | xorReg | ldVxDt =>
    cases he; exact inv_nextAdvised (inv_setReg h _ _) hpc .none
  | addReg | subReg | shr | subn | shl => cases he; exact inv_nextAdvised (inv_setFlagThenReg h _ _ _) hpc .none
  | rnd x nn => cases he; exact inv_nextAdvised (inv_setReg (inv_countDraw h) _ _) hpc .none
  | cls => cases he; exact inv_nextAdvised (inv_setDisplay h (Vector.replicate 32 0)) hpc .none
  | ldDtVx x => cases he; exact inv_nextAdvised (inv_setDelay h (s.reg x)) hpc .none
  | ldStVx x => cases he; exact inv_nextAdvised (inv_setSound h (s.reg x)) hpc .none
  | ldI nnn => cases he; exact inv_nextAdvised (inv_setIndex h (targetOf_le nnn)) hpc .none
  | ldF x => cases he; exact inv_nextAdvised (inv_setIndex h (glyphAddress_le _)) hpc _
  | addI x =>
    cases he
    exact inv_nextAdvised (inv_setIndex (inv_setReg h _ _) (maskedIndexSum_le _ _)) hpc .none

/-- Settles O18: an instruction runs only where its word was fetched, so `pc` is at most 0xFFE before it. -/
theorem stepKeepsInvariant : Obligations.StepKeepsInvariant := by
  intro s t h hstep
  rcases step_cases s with ⟨-, hs⟩ | ⟨-, -, hs⟩ | ⟨-, hpc, -, hs⟩ | ⟨-, hpc, i, -, hs⟩
  · cases hs.symm.trans hstep; exact inv_refuseStep h
  · cases hs.symm.trans hstep; exact inv_fatalHalt h _
  · cases hs.symm.trans hstep; exact inv_nextAdvised h (by omega) _
  · exact exec_inv h (by omega) (hs.symm.trans hstep)

theorem inv_resetAt (now0 : Nat) : Inv (State.resetAt now0) where
  memory := State.wf_resetAt now0
  index := Nat.zero_le _
  counter := show (0x200 : Word).toNat ≤ 0x10FE by decide
  slotZero := rfl
  stacked j := by simp [State.resetAt]
  cause _ := rfl

theorem inv_resetOperation (s : State) (now0 : Nat) : Inv (s.resetOperation now0) := { inv_resetAt now0 with }

/-- Settles O17: the count of draws, which Reset keeps, is no part of the invariant. -/
theorem resetMeetsInvariant : Obligations.ResetMeetsInvariant :=
  ⟨inv_resetAt 0, fun s now0 => ⟨_, rfl, inv_resetOperation s now0⟩⟩

theorem inv_install {s : State} (h : Inv s) (bytes : List Byte) : Inv (s.install bytes) := by
  rcases s.install_cases bytes with ⟨hlen, hi⟩ | hi <;> rw [hi]
  · exact { inv_writeBytes h (show 0x200 + bytes.length ≤ 4096 by omega) with cause := fun _ => rfl }
  · exact h

theorem inv_tick {s t : State} (h : Inv s) {now : Nat} (ht : s.tick now = .next t) : Inv t := by
  rcases s.tickWith_cases Config.tickPeriod now with ⟨-, hc⟩ | ⟨-, -, hc⟩ | ⟨-, -, hc⟩ <;> cases hc.symm.trans ht
  · exact { h with }
  · exact h

theorem operate_inv {op : Operation} {s t : State} (h : Inv s) (ho : operate op s = .next t) : Inv t := by
  cases op with
  | reset now0 => cases ho; exact inv_resetOperation s now0
  | install bytes => cases ho; exact inv_install h bytes
  | keyEvent k isPressed => cases ho; exact { h with }
  | tick now => exact inv_tick h ho
  | step => exact stepKeepsInvariant s t h ho
  | displaySnapshot => cases ho; exact h

/-! ### Sequences of operations -/

/-- A sequence with a last state has a state after its first operation. -/
theorem operateAll_cons {op : Operation} {ops : List Operation} {s t : State}
    (h : operateAll (op :: ops) s = .next t) : ∃ u, operate op s = .next u ∧ operateAll ops u = .next t := by
  rw [operateAll] at h
  cases hop : operate op s with
  | next u => rw [hop] at h; exact ⟨u, rfl, h⟩
  | fault r => rw [hop] at h; cases h
  | refused r => rw [hop] at h; cases h

/-- What every operation of a sequence keeps, the sequence keeps. -/
theorem operateAll_keeps {P : State → Prop} {ops : List Operation} {s t : State}
    (hop : ∀ op ∈ ops, ∀ u v, P u → operate op u = .next v → P v) (hs : P s) (h : operateAll ops s = .next t) :
    P t := by
  induction ops generalizing s with
  | nil => cases h; exact hs
  | cons op ops ih =>
    obtain ⟨u, hu, hrest⟩ := operateAll_cons h
    exact ih (fun op' hmem => hop op' (List.mem_cons_of_mem _ hmem)) (hop op List.mem_cons_self s u hs hu) hrest

/-- Settles O19: each of the six operations keeps the invariant. -/
theorem operationsKeepInvariant : Obligations.OperationsKeepInvariant :=
  fun _ _ _ => operateAll_keeps fun _ _ _ _ => operate_inv

/-! ### A machine that is not loaded (`60_exceptions.md` R174, R175) -/

/-- `t` is `s`, not loaded, up to what runs on without it: timers, keys, the time reference, and the result of a refused
Step (`60_exceptions.md` R174). -/
def StaysHalted (s t : State) : Prop :=
  t.loaded = false ∧ t.faultCause = s.faultCause ∧ KeepsAllBut [.dt, .st, .key, .timerRef, .result] s t

/-- Of the pieces that an operation writes on a machine that is not loaded, none says whether it runs. -/
theorem operate_frame_of_not_loaded {op : Operation} {s t : State} (hl : s.loaded = false)
    (hop : relaunches op = false) (h : operate op s = .next t) :
    KeepsAllBut [.dt, .st, .key, .timerRef, .result] s t := by
  cases op with
  | reset now0 => cases hop
  | install bytes => cases h; rw [s.install_of_rejected hop]; exact keepsAllBut_refl _ s
  | keyEvent k isPressed => cases h; exact keepsAllBut_mono (s.keyEvent_frame k isPressed) (by decide)
  | tick now => exact keepsAllBut_mono (State.tick_frame h) (by decide)
  | step => cases (step_of_not_loaded hl).symm.trans h; exact keepsAllBut_mono s.refuseStep_frame (by decide)
  | displaySnapshot => cases h; exact keepsAllBut_refl _ s

theorem operate_staysHalted {op : Operation} {s u v : State} (hop : relaunches op = false) (hu : StaysHalted s u)
    (h : operate op u = .next v) : StaysHalted s v := by
  obtain ⟨hl, hc, hframe⟩ := hu
  have hv := operate_frame_of_not_loaded hl hop h
  exact ⟨(hv .loaded (by decide)).trans hl, (hv .faultCause (by decide)).trans hc,
    keepsAllBut_mono (keepsAllBut_trans hframe hv) (by decide)⟩

/-- Settles O16: no operation but a Reset or an accepted Install writes more, as a Step on such a machine is refused. -/
theorem haltedMachineStaysHalted : Obligations.HaltedMachineStaysHalted :=
  fun _ s _ hl hops => operateAll_keeps (P := StaysHalted s) (fun op hmem _ _ => operate_staysHalted (hops op hmem))
    ⟨hl, rfl, keepsAllBut_refl _ s⟩

end Sys2Proof.Machine

/-! PROOFS. What a Step runs and what it returns (`30_encoding.md` R70 to R72, `60_exceptions.md` R171, R177). -/

namespace Sys2Proof.Machine

open Sys2Proof.Safety

/-! ### What a loaded Step runs (`30_encoding.md` R70, R72) -/

theorem step_of_decoded {s : State} {i : Instr} (hl : s.loaded = true) (hpc : s.pc.toNat + 1 < 4096)
    (hw : decodeWord s.fetchWord = .ok i) : step s = exec i s := by
  rcases step_cases s with ⟨hl', -⟩ | ⟨-, hpc', -⟩ | ⟨-, -, ⟨e, he⟩, -⟩ | ⟨-, -, j, hj, hs⟩
  · simp [hl] at hl'
  · omega
  · simp [hw] at he
  · cases hw.symm.trans hj; exact hs

theorem step_of_fetchOob {s : State} (hl : s.loaded = true) (hpc : s.pc.toNat + 1 ≥ 4096) :
    step s = .next (s.fatalHalt .fetchOob) := by
  rcases step_cases s with ⟨hl', -⟩ | ⟨-, -, hs⟩ | ⟨-, hpc', -⟩ | ⟨-, hpc', -⟩
  · simp [hl] at hl'
  · exact hs
  · omega
  · omega

/-- Settles O7: of the four ways a Step goes, its premises leave the decoded instruction. -/
theorem stepRunsDecodedInstruction : Obligations.StepRunsDecodedInstruction :=
  fun _ _ => step_of_decoded

/-- Settles O9: of the four ways a Step goes, its premises leave the fatal halt, which is precise. -/
theorem fetchOutOfBoundsHalts : Obligations.FetchOutOfBoundsHalts :=
  fun s hl hpc => ⟨_, step_of_fetchOob hl hpc, s.fatalHalt_halted _⟩

/-! ### What a Step returns (`30_encoding.md` R71) -/

/-- The three results of an instruction: `OK` with its own advisory, `WAITING`, or `HALTED` with its own cause. -/
theorem exec_result_cases {i : Instr} {s t : State} (h : exec i s = .next t) :
    (haltCause s i = .none ∧ t.result = ⟨.ok, .none, advisoryOf s i⟩) ∨
    (haltCause s i = .none ∧ advisoryOf s i = .none ∧ t.result = ⟨.waiting, .none, .none⟩) ∨
    (haltCause s i ≠ .none ∧ advisoryOf s i = .none ∧ t.result = ⟨.halted, haltCause s i, .none⟩) := by
  rcases exec_completesOrHalts h with ⟨hc, -⟩ | ⟨hc, rfl⟩
  · cases i with
    | ret | call | drw | ldB | storeRegs | loadRegs =>
      simp only [exec_ret, exec_call, exec_drw, exec_ldB, exec_storeRegs, exec_loadRegs, hc, State.haltOr_none] at h
      cases h
      exact .inl ⟨hc, rfl⟩
    | ldVxK x =>
      cases hk : leastPressedKey s with
      | some k => cases (exec_ldVxK_of_some x hk).symm.trans h; exact .inl ⟨hc, rfl⟩
      | none => cases (exec_ldVxK_of_none x hk).symm.trans h; exact .inr (.inl ⟨hc, rfl, rfl⟩)
    | _ => cases h; exact .inl ⟨hc, rfl⟩
  · refine .inr (.inr ⟨hc, ?_, rfl⟩)
    cases i with
    | ldF | skp | sknp => exact absurd rfl hc
    | _ => rfl

/-- A runnable instruction leaves `loaded` as it was; the halt clears it. -/
theorem exec_loaded {i : Instr} {s t : State} (h : exec i s = .next t) :
    t.loaded = true ↔ haltCause s i = .none ∧ s.loaded = true := by
  rcases exec_completesOrHalts h with ⟨hc, -, hframe⟩ | ⟨hc, rfl⟩
  · have hl : t.loaded = s.loaded := hframe .loaded (by simp [completionWrites])
    simp [hc, hl]
  · simp [hc]

/-- Settles O11: the result and the flag of each of the four ways a Step goes, and of each way an instruction ends. -/
theorem stepAnswersRunnableIffLoaded : Obligations.StepAnswersRunnableIffLoaded := by
  intro s
  rcases step_cases s with ⟨hl, hs⟩ | ⟨-, -, hs⟩ | ⟨hl, -, -, hs⟩ | ⟨hl, -, i, -, hs⟩
  · exact ⟨_, hs, by simp [StepResult.runnable, hl]⟩
  · exact ⟨_, hs, by simp [StepResult.runnable]⟩
  · exact ⟨_, hs, by simp [StepResult.runnable, hl]⟩
  · obtain ⟨t, ht⟩ := exec_next i s
    refine ⟨t, hs.trans ht, ?_⟩
    rw [exec_loaded ht]
    rcases exec_result_cases ht with ⟨hc, hr⟩ | ⟨hc, -, hr⟩ | ⟨hc, -, hr⟩ <;>
      simp [StepResult.runnable, hl, hc, hr]

/-! ### Causes and advisories (`60_exceptions.md` R171, R177) -/

theorem exec_cause {i : Instr} {s t : State} (h : exec i s = .next t) :
    t.result.cause = haltCause s i ∧ (t.result.status = .halted ↔ haltCause s i ≠ .none) := by
  rcases exec_result_cases h with ⟨hc, hr⟩ | ⟨hc, -, hr⟩ | ⟨hc, -, hr⟩ <;> simp [hc, hr]

theorem exec_advisory {i : Instr} {s t : State} (h : exec i s = .next t) : t.result.advisory = advisoryOf s i := by
  rcases exec_result_cases h with ⟨-, hr⟩ | ⟨-, ha, hr⟩ | ⟨-, ha, hr⟩ <;> simp [*]

/-- The fetch halts before there is an instruction. -/
theorem haltCause_ne_fetchOob (s : State) (i : Instr) : haltCause s i ≠ .fetchOob := by
  cases i with
  | ret | call | drw | ldB | storeRegs | loadRegs => simp only [haltCause]; split <;> decide
  | _ => exact nofun

/-- An unrecognized word is no instruction. -/
theorem advisoryOf_ne_unknownOpcode (s : State) (i : Instr) : advisoryOf s i ≠ .unknownOpcode := by
  cases i with
  | ldF | skp | sknp => simp only [advisoryOf]; split <;> decide
  | _ => exact nofun

/-- Settles O14: the causes of the instructions, and of the four ways a Step goes the one that is not an
instruction's. -/
theorem haltCausesAreExactly : Obligations.HaltCausesAreExactly := by
  refine ⟨fun i s => ?_, fun s t hl hstep => ?_, rfl, rfl, rfl, rfl, rfl, rfl⟩
  · obtain ⟨t, ht⟩ := exec_next i s
    exact ⟨t, ht, exec_cause ht⟩
  · rcases step_cases s with ⟨hl', -⟩ | ⟨-, hpc, hs⟩ | ⟨-, hpc, -, hs⟩ | ⟨-, hpc, i, -, hs⟩
    · simp [hl] at hl'
    · cases hs.symm.trans hstep; exact iff_of_true rfl hpc
    · cases hs.symm.trans hstep; exact iff_of_false (by simp) (Nat.not_le.2 hpc)
    · obtain ⟨hcause, -⟩ := exec_cause (hs.symm.trans hstep)
      exact iff_of_false (hcause ▸ haltCause_ne_fetchOob s i) (Nat.not_le.2 hpc)

/-- Settles O15: the advisories of the instructions, and of the four ways a Step goes the one that is over no
instruction. -/
theorem advisoriesAreExactly : Obligations.AdvisoriesAreExactly := by
  refine ⟨fun i s => ?_, fun s t hstep => ?_, rfl, rfl, rfl, rfl⟩
  · obtain ⟨t, ht⟩ := exec_next i s
    exact ⟨t, ht, exec_advisory ht⟩
  · rcases step_cases s with ⟨hl, hs⟩ | ⟨-, hpc, hs⟩ | ⟨hl, hpc, he, hs⟩ | ⟨-, -, i, hi, hs⟩
    · cases hs.symm.trans hstep; exact iff_of_false (by simp) (by simp [hl])
    · cases hs.symm.trans hstep; exact iff_of_false (by simp) fun ⟨_, hlt, _⟩ => absurd hpc (Nat.not_le.2 hlt)
    · cases hs.symm.trans hstep; exact iff_of_true rfl ⟨hl, hpc, he⟩
    · have hadvisory := exec_advisory (hs.symm.trans hstep)
      exact iff_of_false (hadvisory ▸ advisoryOf_ne_unknownOpcode s i) (by simp [hi])

/-! ### A word that is laid out at the fetch (log 11) -/

/-- `s`, with `pc` put at `PC_RESET` where nothing can be fetched at it: where `placeAtFetch` lays bytes out. -/
def State.atFetch (s : State) : State := if s.fetchValid then s else { s with pc := Config.pcReset }

theorem State.atFetch_fetchValid (s : State) : s.atFetch.fetchValid = true := by
  unfold State.atFetch
  split
  · assumption
  · rfl

theorem State.atFetch_mem (s : State) : s.atFetch.mem = s.mem := by
  unfold State.atFetch
  split <;> rfl

theorem State.fetchValid_iff (s : State) : s.fetchValid = true ↔ s.pc.toNat + 1 < 4096 := validAddress_iff _

theorem State.writeBytes_pc (s : State) (a : Nat) (bs : List Byte) : (s.writeBytes a bs).pc = s.pc :=
  s.writeBytes_frame a bs .pc (by decide)

/-- The two bytes of a word written at a valid `pc` are that word at the next fetch. -/
theorem State.fetchWord_writeBytes {s : State} (hwf : s.mem.wf = true) (hpc : s.pc.toNat + 1 < 4096) (w : Word) :
    (s.writeBytes s.pc.toNat [highByte w, lowByte w]).fetchWord = w := by
  have hread := fun a => s.read_writeBytes s.pc.toNat a [highByte w, lowByte w] hwf hpc
  rw [State.fetchWord, s.writeBytes_pc, hread, hread]
  simp

theorem decodeWord_of_decodeTableWord {nbits w : Nat} {i : Instr} (h : decodeTableWord nbits w = some i) :
    decodeWord (tableWord nbits w) = .ok i := by
  cases hd : decodeWord (tableWord nbits w) with
  | ok j => simp [decodeTableWord, decode, hd] at h; rw [h]
  | error e => simp [decodeTableWord, decode, hd] at h

/-- Settles O12: the placed word is fetched at a valid address on a loaded machine, and so runs. -/
theorem placedWordRuns : Obligations.PlacedWordRuns := by
  intro s w i hwf hi
  have hpc := s.atFetch.fetchValid_iff.1 s.atFetch_fetchValid
  have hkept : (s.withFetchWord 16 w).pc = s.atFetch.pc := s.atFetch.writeBytes_pc _ _
  have hfetched : (s.withFetchWord 16 w).fetchWord = tableWord 16 w :=
    State.fetchWord_writeBytes (s.atFetch_mem ▸ hwf) hpc (tableWord 16 w)
  refine step_of_decoded rfl ?_ ?_
  · rwa [hkept]
  · rw [hfetched]; exact decodeWord_of_decodeTableWord hi

end Sys2Proof.Machine

/-! PROOFS. A recognized word and its row of the opcode map (`30_encoding.md` R61 to R65). -/

namespace Sys2Proof

/-! ### A word is made of its fields, with the ones a row fixes given by their values -/

theorem encodeNNN_of_fields {w : Word} {g : Nibble} (hg : opGroup w = g) : encodeNNN g (opNNN w) = w :=
  hg ▸ encodeNNN_fields w

theorem encodeXNN_of_fields {w : Word} {g : Nibble} (hg : opGroup w = g) : encodeXNN g (opX w) (opNN w) = w :=
  hg ▸ encodeXNN_fields w

theorem encodeXNN_of_key {w : Word} {g : Nibble} {nn : Byte} (hg : opGroup w = g) (hnn : opNN w = nn) :
    encodeXNN g (opX w) nn = w :=
  hnn ▸ encodeXNN_of_fields hg

theorem encodeXYN_of_fields {w : Word} {g : Nibble} (hg : opGroup w = g) :
    encodeXYN g (opX w) (opY w) (opN w) = w :=
  hg ▸ encodeXYN_fields w

theorem encodeXYN_of_key {w : Word} {g n : Nibble} (hg : opGroup w = g) (hn : opN w = n) :
    encodeXYN g (opX w) (opY w) n = w :=
  hn ▸ encodeXYN_of_fields hg

/-! ### Encoding inverts decoding, one group at a time (`30_encoding.md` R64) -/

theorem encode_of_decodeGroup0 {w : Word} {i : Instr} (hg : opGroup w = 0x0) (h : decodeGroup0 w = .ok i) :
    encode i = w := by
  unfold decodeGroup0 at h
  split_ifs at h with hcls hret <;> cases h
  · rw [← encodeNNN_of_fields hg, hcls]; rfl
  · rw [← encodeNNN_of_fields hg, hret]; rfl

theorem encode_of_decodeGroup8 {w : Word} {i : Instr} (hg : opGroup w = 0x8) (h : decodeGroup8 w = .ok i) :
    encode i = w := by
  unfold decodeGroup8 at h
  split at h <;> cases h
  all_goals
    rename_i hkey
    exact encodeXYN_of_key hg (BitVec.eq_of_toNat_eq hkey)

theorem encode_of_decodeGroupE {w : Word} {i : Instr} (hg : opGroup w = 0xE) (h : decodeGroupE w = .ok i) :
    encode i = w := by
  unfold decodeGroupE at h
  split_ifs at h <;> cases h <;> exact encodeXNN_of_key hg ‹_›

theorem encode_of_decodeGroupF {w : Word} {i : Instr} (hg : opGroup w = 0xF) (h : decodeGroupF w = .ok i) :
    encode i = w := by
  unfold decodeGroupF at h
  split_ifs at h <;> cases h <;> exact encodeXNN_of_key hg ‹_›

/-- The twelve groups that have no secondary key. -/
theorem encode_of_plainGroup {w : Word} {i : Instr}
    (hg : opGroup w ∈ [0x1, 0x2, 0x3, 0x4, 0x5, 0x6, 0x7, 0x9, 0xA, 0xB, 0xC, 0xD]) (h : decodeWord w = .ok i) :
    encode i = w := by
  simp only [List.mem_cons, List.not_mem_nil, or_false] at hg
  rcases hg with hg | hg | hg | hg | hg | hg | hg | hg | hg | hg | hg | hg
  all_goals
    rw [decodeWord, hg] at h
    cases h
    simp only [encode, encodeNNN_of_fields hg, encodeXNN_of_fields hg, encodeXYN_of_fields hg]

/-- Settles O3: the group and the secondary key fix what the row fixes, and the operands are the other fields. -/
theorem encodeOfDecode : Obligations.EncodeOfDecode := by
  intro w i h
  rcases group_cases (opGroup w) with hg | hg | hg | hg | hg
  · exact encode_of_decodeGroup0 hg (decodeWord_of_opGroup_0 hg ▸ h)
  · exact encode_of_decodeGroup8 hg (decodeWord_of_opGroup_8 hg ▸ h)
  · exact encode_of_decodeGroupE hg (decodeWord_of_opGroup_E hg ▸ h)
  · exact encode_of_decodeGroupF hg (decodeWord_of_opGroup_F hg ▸ h)
  · exact encode_of_plainGroup hg h

/-! ### The masks (`30_encoding.md` R63) -/

/-- Every instruction matches the row it stands in. -/
theorem encode_matches_row (i : Instr) : encode i &&& (opcodeRow i).1 = (opcodeRow i).2 := by
  cases i with
  | cls => exact Laws.MatchesRow.cls
  | ret => exact Laws.MatchesRow.ret
  | jp | call | ldI | jpV0 => exact Laws.MatchesRow.nnn _ _
  | seImm | sneImm | ldImm | addImm | rnd => exact Laws.MatchesRow.xnn _ _ _
  | seReg | sneReg | drw => exact Laws.MatchesRow.xyn _ _ _ _
  | ldReg | orReg | andReg | xorReg | addReg | subReg | shr | subn | shl => exact Laws.MatchesRow.xyf _ _ _ _
  | skp | sknp | ldVxDt | ldVxK | ldDtVx | ldStVx | addI | ldF | ldB | storeRegs | loadRegs =>
    exact Laws.MatchesRow.xff _ _ _

theorem opGroup_of_masked {w mask m : Word} (hmask : opGroup mask = 0xF) (h : w &&& mask = m) :
    opGroup w = opGroup m := by
  rw [← h, opGroup_and, hmask]; exact (BitVec.and_allOnes (x := opGroup w)).symm

theorem opN_of_masked {w mask m : Word} (hmask : opN mask = 0xF) (h : w &&& mask = m) : opN w = opN m := by
  rw [← h, opN_and, hmask]; exact (BitVec.and_allOnes (x := opN w)).symm

theorem opNN_of_masked {w mask m : Word} (hmask : opNN mask = 0xFF) (h : w &&& mask = m) : opNN w = opNN m := by
  rw [← h, opNN_and, hmask]; exact (BitVec.and_allOnes (x := opNN w)).symm

/-- A word that matches the mask of a row decodes to the row's instruction: the mask fixes its group and secondary
key. -/
theorem decodeWord_of_matches_row {w : Word} {i₀ : Instr} (h : w &&& (opcodeRow i₀).1 = (opcodeRow i₀).2) :
    ∃ i, decodeWord w = .ok i ∧ opcodeRow i = opcodeRow i₀ := by
  cases i₀ with
  | cls | ret =>
    obtain rfl := (BitVec.and_allOnes (x := w)).symm.trans h
    exact ⟨_, rfl, rfl⟩
  | jp | call | seImm | sneImm | seReg | ldImm | addImm | sneReg | ldI | jpV0 | rnd | drw =>
    simp only [opcodeRow] at h
    rw [decodeWord, opGroup_of_masked rfl h]
    exact ⟨_, rfl, rfl⟩
  | ldReg | orReg | andReg | xorReg | addReg | subReg | shr | subn | shl =>
    simp only [opcodeRow] at h
    rw [decodeWord_of_opGroup_8 (opGroup_of_masked rfl h), decodeGroup8, opN_of_masked rfl h]
    exact ⟨_, rfl, rfl⟩
  | skp | sknp =>
    simp only [opcodeRow] at h
    rw [decodeWord_of_opGroup_E (opGroup_of_masked rfl h), decodeGroupE, opNN_of_masked rfl h]
    exact ⟨_, rfl, rfl⟩
  | ldVxDt | ldVxK | ldDtVx | ldStVx | addI | ldF | ldB | storeRegs | loadRegs =>
    simp only [opcodeRow] at h
    rw [decodeWord_of_opGroup_F (opGroup_of_masked rfl h), decodeGroupF, opNN_of_masked rfl h]
    exact ⟨_, rfl, rfl⟩

/-- Settles O4: what matches a row decodes into it, and what decodes into a row is its own encoding, which matches. -/
theorem wordIsOfRowIffMaskMatches : Obligations.WordIsOfRowIffMaskMatches := by
  refine fun w i₀ => ⟨decodeWord_of_matches_row, ?_⟩
  rintro ⟨i, hi, hrow⟩
  rw [← hrow, ← encodeOfDecode w i hi]
  exact encode_matches_row i

/-- Settles O6: the words are closed, so both sides compute. -/
theorem sampleWordsDecode : Obligations.SampleWordsDecode :=
  ⟨rfl, rfl, rfl, rfl, rfl, rfl, rfl, rfl, rfl⟩

end Sys2Proof

/-! PROOFS. Registers and VF, call and return, store and load (`10_state.md` R11, `41_alu.md` R111, R113, `40_flow.md`
R80, R82, `42_index_memory.md` R124, R125, `20_memory.md` R53). -/

namespace Sys2Proof.Machine

open Sys2Proof.Safety

/-! ### An instruction that can halt, and did not -/

theorem exec_ok_of_haltOr {i : Instr} {s t u : State} (hi : exec i s = .next (s.haltOr (haltCause s i) u))
    (h : exec i s = .next t) (hok : t.result.status = .ok) : haltCause s i = .none ∧ t = u := by
  cases hi.symm.trans h
  by_cases hc : haltCause s i = .none
  · exact ⟨hc, by rw [hc, State.haltOr_none]⟩
  · rw [State.haltOr, if_neg hc] at hok
    simp at hok

/-! ### Who writes VF (`10_state.md` R11) -/

theorem flagByte_eq_zero_or_one (c : Bool) : flagByte c = 0x00 ∨ flagByte c = 0x01 := by cases c <;> decide

/-- One register write reaches VF only as the destination. -/
theorem State.reg_vf_setReg_of_ne (s : State) {x : Nibble} (b : Byte) (hx : x ≠ vf) :
    (s.setReg x b).reg vf = s.reg vf := by
  rw [State.reg_setReg, if_neg hx.symm]

/-- A load reaches VF only as the last register, its named destination (`42_index_memory.md` R125). -/
theorem State.reg_vf_loadRegsFrom_of_ne (s : State) (base : Nat) {x : Nibble} (hx : x ≠ vf) :
    (s.loadRegsFrom base (transferCount x)).reg vf = s.reg vf := by
  have hcount : transferCount x ≤ 16 := x.isLt
  have hne : x.toNat ≠ 15 := fun h => hx (BitVec.eq_of_toNat_eq h)
  have hvf : ¬ vf.toNat < transferCount x := show ¬ 15 < x.toNat + 1 by unfold transferCount at hcount; omega
  rw [s.reg_loadRegsFrom _ _ hcount, if_neg hvf]

theorem State.reg_haltOr {s u : State} {c : FaultCause} {r : Nibble} (hu : u.reg r = s.reg r) :
    (s.haltOr c u).reg r = s.reg r := by
  unfold State.haltOr
  split
  · exact hu
  · rfl

/-- An instruction that neither sets a flag nor names VF keeps it. -/
theorem exec_keeps_vf {i : Instr} {s t : State} (h : exec i s = .next t) (hflag : writesFlag i = false)
    (hdest : destination i ≠ some vf) : t.reg vf = s.reg vf := by
  by_cases hv : .v ∈ executorWrites i
  · cases i with
    | addReg | subReg | shr | subn | shl | addI | drw => simp [writesFlag] at hflag
    | ldImm x | addImm x | ldReg x | orReg x | andReg x | xorReg x | ldVxDt x | rnd x =>
      cases h
      exact State.reg_vf_setReg_of_ne _ _ fun hx => hdest (congrArg some hx)
    | ldVxK x =>
      cases hk : leastPressedKey s with
      | some k =>
        cases (exec_ldVxK_of_some x hk).symm.trans h
        exact State.reg_vf_setReg_of_ne _ _ fun hx => hdest (congrArg some hx)
      | none => cases (exec_ldVxK_of_none x hk).symm.trans h; rfl
    | loadRegs x =>
      cases (exec_loadRegs s x).symm.trans h
      exact State.reg_haltOr (s.reg_vf_loadRegsFrom_of_ne _ fun hx => hdest (congrArg some hx))
    | _ => simp [executorWrites] at hv
  · exact exec_frame h .v hv vf

/-- A flag-setting instruction that completes and does not name VF leaves a flag in it. -/
theorem exec_vf_isFlag {i : Instr} {s t : State} (h : exec i s = .next t) (hflag : writesFlag i = true)
    (hdest : destination i ≠ some vf) (hok : t.result.status = .ok) : ∃ c, t.reg vf = flagByte c := by
  cases i with
  | addReg x | subReg x | shr x | subn x | shl x =>
    cases h
    exact ⟨_, s.reg_vf_setFlagThenReg _ _ fun hx => hdest (congrArg some hx)⟩
  | addI x => cases h; exact ⟨_, s.reg_setReg_same vf _⟩
  | drw x y n =>
    obtain ⟨-, rfl⟩ := exec_ok_of_haltOr (exec_drw s x y n) h hok
    exact ⟨_, s.drawSprite_reg_vf x y n⟩
  | _ => simp [writesFlag] at hflag

/-- Settles O21: an instruction that keeps VF did not change it, and a flag is one of two bytes. -/
theorem flagRegisterWriters : Obligations.FlagRegisterWriters := by
  refine fun i s t h => ⟨fun hne => ?_, fun hflag hdest hok => ?_⟩
  · by_contra hnone
    obtain ⟨hflag, hdest⟩ := not_or.1 hnone
    exact hne (exec_keeps_vf h (Bool.eq_false_iff.2 hflag) hdest)
  · obtain ⟨c, hc⟩ := exec_vf_isFlag h hflag hdest hok
    rw [hc]
    exact flagByte_eq_zero_or_one c

/-! ### The order of the two writes (`41_alu.md` R113) -/

/-- An instruction that ends with the write of `b` to `x` after a flag leaves `b` there, whatever register `x` is. -/
theorem reg_of_setFlagThenReg {s t : State} {f : Bool} {x : Nibble} {b : Byte}
    (h : (.next (s.setFlagThenReg f x b).nextInstr : Answer) = .next t) : t.reg x = b := by
  cases h; exact s.reg_setFlagThenReg_same f x b

/-- Settles O34: the result is written last, from operands read before either write. -/
theorem resultWinsOverFlag : Obligations.ResultWinsOverFlag := by
  refine fun x y s t => ⟨reg_of_setFlagThenReg, reg_of_setFlagThenReg, reg_of_setFlagThenReg, reg_of_setFlagThenReg,
    reg_of_setFlagThenReg, reg_of_setFlagThenReg, reg_of_setFlagThenReg, reg_of_setFlagThenReg, fun h => ?double,
    fun h => ⟨?zero, fun hx => ?flag⟩⟩
  case double => exact (reg_of_setFlagThenReg h).trans BitVec.two_mul.symm
  case zero => exact (reg_of_setFlagThenReg h).trans (BitVec.sub_self (s.reg x))
  case flag =>
    cases h
    rw [State.nextInstr_reg, s.reg_vf_setFlagThenReg _ _ hx, notBorrow, flagByte_decide, if_pos le_rfl]

/-! ### The random byte (`41_alu.md` R111) -/

/-- What is masked with `NN` has no bit outside it. -/
theorem masked_and_not (b nn : Byte) : b &&& nn &&& ~~~nn = 0 := by
  ext k hk; simp

/-- Settles O35: the arm is one write of the masked draw, and one more draw is counted. -/
theorem randomByteMasked : Obligations.RandomByteMasked := by
  intro x nn s
  have hdrawn : (s.countDraw.setReg x (Config.rand s.draws &&& nn)).reg x = Config.rand s.draws &&& nn :=
    State.reg_setReg_same _ x _
  refine ⟨fun draw => ⟨s.reg_setReg_same x _, s.setReg_nextInstr_frame x _⟩, ⟨_, rfl, hdrawn, ?mask, ?regs,
    s.nextInstr_sequential _ [.v, .draws] (s.setReg_countDraw_frame x _) (by decide)⟩⟩
  case mask => exact hdrawn ▸ masked_and_not _ nn
  case regs => exact (State.setReg_frame s.countDraw x _).1

/-! ### A return after a call (`40_flow.md` R80, R82) -/

theorem State.stackTop_push (s : State) (w : Word) (h : s.sp.val < 15) : (s.push w).stackTop = w := by
  rw [State.stackTop, s.push_slot w h _ (Fin.isLt _), if_pos (s.push_sp w h)]

theorem State.stackTop_congr {s t : State} (hsp : s.sp = t.sp) (hstack : s.stack = t.stack) :
    s.stackTop = t.stackTop := by
  simp only [State.stackTop, hsp, hstack]

/-- Settles O26: the pushed slot is the one that `sp` names afterwards, and the pop steps below it. -/
theorem callThenReturn : Obligations.CallThenReturn := by
  intro nnn s t u hroom hcall hsp hstack
  cases (exec_call_of_lt nnn hroom).symm.trans hcall
  have hu : u.sp.val = s.sp.val + 1 := (congrArg Fin.val hsp).trans (s.push_sp s.pc hroom)
  have htop : u.stackTop = s.pc := (State.stackTop_congr hsp hstack).trans (s.stackTop_push s.pc hroom)
  refine ⟨_, exec_ret_of_ne_zero (by omega), ?counter, ?pointer⟩
  case counter => rw [State.jumpTo_pc, htop]
  case pointer => exact Fin.ext (by rw [State.jumpTo_sp, u.pop_sp, hu, Nat.add_sub_cancel])

/-! ### What a store left (`42_index_memory.md` R124, R125, `20_memory.md` R53) -/

/-- A store that completes found its bytes in memory. -/
theorem storeRegs_of_ok {x : Nibble} {s t : State} (h : exec (.storeRegs x) s = .next t)
    (hok : t.result.status = .ok) :
    s.i.toNat + x.toNat < 4096 ∧ t = (s.storeRegsFrom s.i.toNat (transferCount x)).nextInstr := by
  obtain ⟨hc, ht⟩ := exec_ok_of_haltOr (exec_storeRegs s x) h hok
  exact ⟨haltCause_storeRegs_eq_none.1 hc, ht⟩

/-- From the memory such a store left, register `r` is read at `I + r`. -/
theorem read_of_storeRegs_ok {x r : Nibble} {s t u : State} (hwf : s.mem.wf = true)
    (h : exec (.storeRegs x) s = .next t) (hok : t.result.status = .ok) (hmem : u.mem = t.mem)
    (hr : r.toNat ≤ x.toNat) : u.read (s.i.toNat + r.toNat) = s.reg r := by
  obtain ⟨hlast, rfl⟩ := storeRegs_of_ok h hok
  rw [State.read, hmem]
  exact s.read_storeRegsFrom_reg hwf hlast (Nat.lt_succ_of_le hr)

/-- Settles O42: the load reads at the same addresses, since the store left `I` as it was. -/
theorem storeThenLoadRestores : Obligations.StoreThenLoadRestores := by
  intro x s t u hwf hstore hok hmem hi
  obtain ⟨hlast, ht⟩ := storeRegs_of_ok hstore hok
  have hindex : u.i = s.i := by
    rw [hi, ht]; exact s.storeRegsFrom_frame _ _ .i (by decide)
  obtain ⟨-, hload⟩ := loadRegisters
  obtain ⟨w, hw, hregs, -⟩ := (hload x u).1 (hindex ▸ hlast)
  refine ⟨w, hw, fun r hr => ?_⟩
  rw [hregs r, if_pos hr, hindex, read_of_storeRegs_ok hwf hstore hok hmem hr]

/-- Settles O43: both bytes of the word are stored registers, as `K + 1` does not wrap below `X`. -/
theorem storeSeenByNextFetch : Obligations.StoreSeenByNextFetch := by
  intro x k s t u hwf hstore hok hmem hk hpc
  have hnext : (k + 1).toNat = k.toNat + 1 := by
    have hx : x.toNat < 2 ^ 4 := x.isLt
    rw [BitVec.toNat_add]; exact Nat.mod_eq_of_lt (by simp; omega)
  have hlow := read_of_storeRegs_ok (r := k + 1) hwf hstore hok hmem (by omega)
  rw [State.fetchWord, hpc, Nat.add_assoc, ← hnext, hlow, read_of_storeRegs_ok hwf hstore hok hmem (by omega)]

end Sys2Proof.Machine

/-! PROOFS. A sprite pixel by pixel, and drawn twice (`43_display.md` R141, R142, `10_state.md` R20). -/

namespace Sys2Proof.Machine

open Sys2Proof.Safety

/-! ### What a sprite puts on a row of the display -/

/-- The pattern that `DXYN` XORs onto row `q`: blank where no visible row of the sprite lies (`43_display.md` R141). -/
def State.spriteRow (s : State) (x y n : Nibble) (q : Nat) : PixelRow :=
  if spriteTop s y ≤ q ∧ q < spriteTop s y + visibleRows s y n then
    spritePattern (spriteColumn s x) (s.read (s.i.toNat + (q - spriteTop s y)))
  else 0

theorem State.drawSprite_row_xor (s : State) (x y n : Nibble) (q : Fin 32) :
    (s.drawSprite x y n).disp[q] = s.disp[q] ^^^ s.spriteRow x y n q := by
  rw [s.drawSprite_row, State.spriteRow]
  split
  · rfl
  · exact BitVec.xor_zero.symm

theorem State.drawSprite_vf_iff (s : State) (x y n : Nibble) :
    (s.drawSprite x y n).reg vf = 0x01 ↔ ∃ q : Fin 32, s.disp[q] &&& s.spriteRow x y n q ≠ 0 := by
  rw [s.drawSprite_reg_vf, flagByte_eq_one_iff, drawRows_hit_iff_row s (spriteTop_add_visibleRows_le s y n)]
  refine exists_congr fun q => ?_
  unfold State.spriteRow
  split
  case isTrue hrow => simp [hrow]
  case isFalse hrow => simp only [BitVec.ofNat_eq_ofNat, BitVec.and_zero]; tauto

/-- Bit `7 - d` of the byte of row `j` lands on pixel `(x0 + d, y0 + j)` of the display, and nothing wraps
(`43_display.md` R142). -/
theorem State.spriteRow_pixel (s : State) (x y n : Nibble) {px py : Nat} (hpx : px < 64) (hpy : py < 32) :
    (s.spriteRow x y n py).getLsbD (63 - px) =
      (decide (spriteColumn s x ≤ px ∧ px < spriteColumn s x + 8) &&
        decide (spriteTop s y ≤ py ∧ py < spriteTop s y + n.toNat) &&
        (s.read (s.i.toNat + (py - spriteTop s y))).getLsbD (7 - (px - spriteColumn s x))) := by
  have hrows : spriteTop s y ≤ py ∧ py < spriteTop s y + visibleRows s y n ↔
      spriteTop s y ≤ py ∧ py < spriteTop s y + n.toNat := by
    unfold visibleRows; omega
  rw [State.spriteRow, if_congr hrows rfl rfl]
  split
  case isTrue hrow =>
    have hcolumn : spriteColumn s x < 64 := Nat.mod_lt _ (by decide)
    rw [spritePattern_pixel _ _ _ hcolumn hpx, decide_eq_true hrow, Bool.and_true]
  case isFalse hrow => rw [decide_eq_false hrow, Bool.and_false, Bool.false_and]; exact BitVec.getLsbD_zero

/-- Settles O46: a row of the display is its old value XOR the pattern, and so is each of its bits. -/
theorem drawPixelByPixel : Obligations.DrawPixelByPixel := by
  intro x y n s t h hok px py hpx hpy
  obtain ⟨-, rfl⟩ := exec_ok_of_haltOr (exec_drw s x y n) h hok
  have hrow : displayRow (s.drawSprite x y n).disp py = displayRow s.disp py ^^^ s.spriteRow x y n py := by
    have hxor := s.drawSprite_row_xor x y n ⟨py, hpy⟩
    rwa [← displayRow_fin, ← displayRow_fin] at hxor
  rw [State.pixel, State.nextInstr_disp, hrow, BitVec.getLsbD_xor, s.spriteRow_pixel x y n hpx hpy]
  rfl

/-! ### The same sprite again -/

/-- What `DXYN` reads, besides the display, is the same after it: the coordinates are not in VF. -/
theorem drawSprite_sameSprite {s t : State} {x y n : Nibble} (hx : x ≠ vf) (hy : y ≠ vf)
    (ht : t = (s.drawSprite x y n).nextInstr) :
    haltCause t (.drw x y n) = haltCause s (.drw x y n) ∧ ∀ q, t.spriteRow x y n q = s.spriteRow x y n q := by
  have hregx : t.reg x = s.reg x := ht ▸ s.drawSprite_regs x y n x (by simpa using hx)
  have hregy : t.reg y = s.reg y := ht ▸ s.drawSprite_regs x y n y (by simpa using hy)
  have hi : t.i = s.i := ht ▸ s.drawSprite_frame x y n .i (by decide)
  have hread : ∀ a, t.read a = s.read a := ht ▸ s.drawSprite_frame x y n .mem (by decide)
  have hcolumn : spriteColumn t x = spriteColumn s x := by rw [spriteColumn, hregx, spriteColumn]
  have htop : spriteTop t y = spriteTop s y := by rw [spriteTop, hregy, spriteTop]
  have hrows : visibleRows t y n = visibleRows s y n := by rw [visibleRows, htop, visibleRows]
  constructor
  · rw [haltCause_drw, haltCause_drw, hrows, hi]
  · intro q
    rw [State.spriteRow, State.spriteRow, hcolumn, htop, hrows, hi, hread]

/-- On a blank display the first draw leaves the sprite itself, so the second collides where the first drew. -/
theorem blank_collision_iff {s t : State} {x y n : Nibble} (hblank : ∀ q : Fin 32, s.disp[q] = 0)
    (ht : ∀ q : Fin 32, t.disp[q] = s.disp[q] ^^^ s.spriteRow x y n q) :
    (∃ q : Fin 32, t.disp[q] &&& s.spriteRow x y n q ≠ 0) ↔ t.disp ≠ s.disp := by
  have hdrawn : ∀ q : Fin 32, t.disp[q] = s.spriteRow x y n q := fun q => by
    rw [ht, hblank]; exact BitVec.zero_xor
  have hdisp : t.disp = s.disp ↔ ∀ q : Fin 32, s.spriteRow x y n q = 0 := by
    constructor
    · intro heq q; rw [← hdrawn, heq, hblank]
    · intro hzero
      refine Vector.ext fun q hq => ?_
      exact (hdrawn ⟨q, hq⟩).trans ((hzero ⟨q, hq⟩).trans (hblank ⟨q, hq⟩).symm)
  simp only [hdrawn, BitVec.and_self, Ne, hdisp, not_forall]

/-- Settles O47: the second draw XORs the same rows, which undoes the first. -/
theorem drawTwiceErases : Obligations.DrawTwiceErases := by
  intro x y n s t hx hy h hok
  obtain ⟨hc, ht⟩ := exec_ok_of_haltOr (exec_drw s x y n) h hok
  obtain ⟨hcause, hsprite⟩ := drawSprite_sameSprite hx hy ht
  have hfirst : ∀ q : Fin 32, t.disp[q] = s.disp[q] ^^^ s.spriteRow x y n q := ht ▸ s.drawSprite_row_xor x y n
  have hagain : exec (.drw x y n) t = .next (t.drawSprite x y n).nextInstr := by
    rw [exec_drw, hcause, hc, State.haltOr_none]
  refine ⟨_, hagain, Vector.ext fun q hq => ?restored, fun hblank => ?flag⟩
  case restored =>
    calc (t.drawSprite x y n).disp[q]
        = t.disp[q] ^^^ t.spriteRow x y n q := t.drawSprite_row_xor x y n ⟨q, hq⟩
      _ = s.disp[q] ^^^ s.spriteRow x y n q ^^^ s.spriteRow x y n q := by
          rw [hsprite]; exact congrArg (· ^^^ _) (hfirst ⟨q, hq⟩)
      _ = s.disp[q] := by rw [BitVec.xor_assoc, BitVec.xor_self]; exact BitVec.xor_zero
  case flag =>
    rw [State.nextInstr_reg, t.drawSprite_vf_iff, ← blank_collision_iff hblank hfirst]
    simp only [hsprite]

end Sys2Proof.Machine

/-! PROOFS. The launch state (`70_reset_and_hazards.md` R206). -/

namespace Sys2Proof.Machine

open Sys2Proof.Safety

/-- What a key event or a Tick can change of a machine whose timers are 0: not the timers. -/
def StaysLaunched (u v : State) : Prop := KeepsAllBut [.dt, .st, .timerRef, .key] u v ∧ v.dt = 0 ∧ v.st = 0

/-- A Tick counts no timer down below 0 (`60_exceptions.md` R183). -/
theorem tick_timers_zero {s t : State} {now : Nat} (hdt : s.dt = 0) (hst : s.st = 0) (h : s.tick now = .next t) :
    t.dt = 0 ∧ t.st = 0 := by
  rcases s.tickWith_cases Config.tickPeriod now with ⟨-, hs⟩ | ⟨-, -, hs⟩ | ⟨-, -, hs⟩ <;> cases hs.symm.trans h
  · exact ⟨if_pos hdt, if_pos hst⟩
  · exact ⟨hdt, hst⟩

theorem operate_staysLaunched {op : Operation} {u v w : State} (hop : betweenInstallAndStep op = true)
    (hv : StaysLaunched u v) (h : operate op v = .next w) : StaysLaunched u w := by
  obtain ⟨hframe, hdt, hst⟩ := hv
  cases op with
  | keyEvent k isPressed =>
    cases h
    exact ⟨keepsAllBut_mono (keepsAllBut_trans hframe (v.keyEvent_frame k isPressed)) (by decide), hdt, hst⟩
  | tick now =>
    exact ⟨keepsAllBut_mono (keepsAllBut_trans hframe (State.tick_frame h)) (by decide), tick_timers_zero hdt hst h⟩
  | reset | install | step | displaySnapshot => cases hop

/-- The keys are as the key events made them (`60_exceptions.md` R186). -/
theorem operateAll_key {ops : List Operation} {s t : State} (hops : ∀ op ∈ ops, betweenInstallAndStep op = true)
    (h : operateAll ops s = .next t) : t.key = keysAfter ops s.key := by
  induction ops generalizing s with
  | nil => cases h; rfl
  | cons op ops ih =>
    obtain ⟨hop, hops⟩ := List.forall_mem_cons.1 hops
    obtain ⟨u, hu, hrest⟩ := operateAll_cons h
    rw [ih hops hrest]
    cases op with
    | keyEvent k isPressed => cases hu; rfl
    | tick now => rw [State.tick_frame hu .key (by decide)]; rfl
    | reset | install | step | displaySnapshot => cases hop

/-- Settles O54: Reset leaves its table, Install the image and the launch, and what comes then keeps both. -/
theorem launchState : Obligations.LaunchState := by
  intro s t now0 bytes ops hmin hmax hops h
  obtain ⟨r, hr, hinstall⟩ := operateAll_cons h
  obtain ⟨u, hu, hagents⟩ := operateAll_cons hinstall
  obtain ⟨r', hr', hregs, hpc, hi, hsp, hstack, hdt, hst, -, hdisp, -, -, -, hfont, hzero⟩ :=
    resetLeavesTableValues s now0
  cases hr'.symm.trans hr
  have hwf : r.mem.wf = true := by cases hr; rfl
  have hkey : r.key = Vector.replicate 16 false := by cases hr; rfl
  obtain ⟨u', hu', -, hloaded, hcause, himage, houtside, hlaunch⟩ := (installWritesImage r bytes hwf).1 ⟨hmin, hmax⟩
  cases hu'.symm.trans hu
  have hstart : StaysLaunched u u :=
    ⟨keepsAllBut_refl _ u, (hlaunch .dt (by decide)).trans hdt, (hlaunch .st (by decide)).trans hst⟩
  obtain ⟨hkept, htdt, htst⟩ :=
    operateAll_keeps (fun op hmem _ _ => operate_staysLaunched (hops op hmem)) hstart hagents
  have hframe := keepsAllBut_trans hlaunch hkept
  have hread : ∀ a, t.read a = u.read a := hkept .mem (by decide)
  have hreset : ∀ a, a < 0x200 ∨ 0x200 + bytes.length ≤ a → t.read a = r.read a := fun a ha =>
    (hread a).trans (houtside a ha)
  refine ⟨(hframe .pc (by decide)).trans hpc, fun q => (hframe .v (by decide) q).trans (hregs q),
    (hframe .i (by decide)).trans hi, (hframe .sp (by decide)).trans hsp, fun j => ?stack, htdt, htst,
    fun q => ?display, (hkept .loaded (by decide)).trans hloaded, (hkept .faultCause (by decide)).trans hcause,
    ?keys, fun a ha => (hreset a (.inl (by omega))).trans (hfont a ha),
    fun j hj => (hread _).trans (himage j hj),
    fun a hlo hhi => (hreset a (.inl hhi)).trans (hzero a hlo (by omega)),
    fun a hlo hhi => (hreset a (.inr hlo)).trans (hzero a (by omega) hhi)⟩
  case stack => rw [show t.stack = r.stack from hframe .stack (by decide)]; exact hstack j
  case display => rw [show t.disp = r.disp from hframe .disp (by decide)]; exact hdisp q
  case keys => rw [operateAll_key hops hagents, show u.key = r.key from hlaunch .key (by decide), hkey]

end Sys2Proof.Machine
